-- ==== Sys2Proof/Word.lean ====
section
/-! DEFINITION. The words of the block's ports and wires, and the names of its channels, lines and
sub-DACs (spec/00_scope.md R9, R10, R15, R17). -/

namespace Sys2Proof

/-- A word of the command port or the result port: `CW`, `ARG`, `RSP` (R3, R69). -/
abbrev Word := BitVec 32

/-- A 10-bit analog sample, in [0,1023] (R9 `ADC_W`, R21). -/
abbrev Sample := BitVec 10

/-- One byte on the serial bus (R70). -/
abbrev Byte := BitVec 8

/-- The two analog banks (R15). -/
inductive Bank where
  | cv
  | knob
deriving DecidableEq, Repr, Inhabited

/-- The four valid ids of a bank of channels or of the logical outputs (R9 `N_CH`, R15). -/
inductive Chan where
  | c1
  | c2
  | c3
  | c4
deriving DecidableEq, Repr, Inhabited

/-- The two chip-select lines: index 0 (chip A) and index 1 (chip B) (R9 `N_CS`, R17). -/
inductive ChipSel where
  | cs0
  | cs1
deriving DecidableEq, Repr, Inhabited

/-- The two sub-DACs of a chip: index 0 is the A channel, index 1 the B channel (R9 `N_SUB`, R17). -/
inductive SubDac where
  | chA
  | chB
deriving DecidableEq, Repr, Inhabited

/-- One thing per channel id 1 to 4. -/
structure Four (α : Type) where
  c1 : α
  c2 : α
  c3 : α
  c4 : α
deriving DecidableEq, Repr, Inhabited

/-- One thing per analog channel: four CV and four knob (R21). -/
structure Banks (α : Type) where
  cv   : Four α
  knob : Four α
deriving DecidableEq, Repr, Inhabited

/-- One thing per chip-select line. -/
structure Lines (α : Type) where
  cs0 : α
  cs1 : α
deriving DecidableEq, Repr, Inhabited

end Sys2Proof
end

