-- ==== Sys2Proof/Config.lean ====
section
/-! DEFINITION. The parameters of the block (spec/00_scope.md R9, spec/10_state.md R43) and the free
values: everything the spec leaves to the environment or to a draw. An opaque constant here has no
body, so a claim about it is true of every value. -/

namespace Sys2Proof

/-- What a model returns for a stale query (R41): any Boolean, or the latch. -/
inductive StalePolicy where
  | draw
  | latch
deriving DecidableEq, Repr

/-- An entry of the routing table. The indices are numbers, not checked ones, because `ROUTE_OK`
(R31) is what checks them. -/
structure Dest where
  cs  : Nat
  sub : Nat
deriving DecidableEq, Repr

/-- The opaque internal state of a collaborator (R26, R29): which unspecified state it had after the
last reset, and the inputs it has been given since, oldest first. DESIGN CHOICE (log 4). -/
structure Collab (α : Type) where
  start : Nat
  fed   : List α
deriving DecidableEq, Repr, Inhabited

/-- The debounce collaborator's three reports, in electrical terms (R63). -/
structure DebounceReport where
  rise  : Bool
  fall  : Bool
  level : Bool
deriving DecidableEq, Repr, Inhabited

/-- The parameters of R9 that a rule reads or that the spec names. They are fixed for a machine; State
carries them so that a claim about every state is a claim about every configuration (log 6). -/
structure Params where
  /-- `ROUTE`, by logical output (R30). -/
  route       : Four Dest
  /-- `DAC_CTRL3`, the bits `DF[14:12]` of every frame (R32, R183). -/
  dacCtrl3    : BitVec 3
  /-- `DAC_SCK_HZ` (R66). -/
  dacSckHz    : Nat
  /-- `DIAG_EMIT` (R245). -/
  diagEmit    : Bool
  /-- `STALE_POLICY` (R41). -/
  stalePolicy : StalePolicy
  /-- `PIN_MAP` of the analog lines; no rule reads it (R61). -/
  analogPins  : Banks Nat
  /-- `PIN_MAP` of the trigger lines; no rule reads it. -/
  trigPins    : Four Nat
  /-- `CS_PIN`; no rule reads it. -/
  csPins      : Lines Nat
deriving DecidableEq, Repr

namespace Config

/-- `DAC_SCK_HZ` is OPEN (R9). -/
opaque dacSckHz : Nat
/-- `DIAG_EMIT` is OPEN (R9). -/
opaque diagEmit : Bool
/-- `PIN_MAP` is OPEN (R9). -/
opaque analogPins : Banks Nat
/-- `PIN_MAP` is OPEN (R9). -/
opaque trigPins : Four Nat
/-- `CS_PIN` is OPEN (R9). -/
opaque csPins : Lines Nat

/-- The configuration of `State.reset`: the value R9 gives each decided parameter, and an opaque
constant for each OPEN one. -/
def params : Params where
  route       := ⟨⟨0, 0⟩, ⟨0, 1⟩, ⟨1, 0⟩, ⟨1, 1⟩⟩
  dacCtrl3    := 0b011#3
  dacSckHz    := dacSckHz
  diagEmit    := diagEmit
  stalePolicy := .draw
  analogPins  := analogPins
  trigPins    := trigPins
  csPins      := csPins

/-! Free values. The last `Nat` (the first one for reset values) is the number of the draw: no two
draws of a run share it, so nothing relates one draw to another. -/

/-- `ReadRaw(b, ch)` (R61). -/
opaque rawSample : Bank → Chan → Nat → Sample
/-- The oracle `SMOOTH`: (value, changed) from a collaborator in the given state (R62). -/
opaque smooth : Bank → Chan → Collab Sample → Nat → Sample × Bool
/-- The oracle `DEBOUNCE`: the three reports from a collaborator in the given state (R63). -/
opaque debounce : Chan → Collab Word → Nat → DebounceReport
/-- `ReadPin(ch)` (R64). -/
opaque pinLevel : Chan → Nat → Bool
/-- `NowMs()` (R65). -/
opaque nowMs : Nat → Word
/-- The answer of a stale query under `STALE_POLICY = draw` (R41). -/
opaque staleAnswer : Nat → Bool
/-- Reset value of `current[b][ch]` (R24). -/
opaque resetCurrent : Nat → Bank → Chan → Sample
/-- Reset value of `last[b][ch]` (R24). -/
opaque resetLast : Nat → Bank → Chan → Sample
/-- Reset value of `chg[b][ch]` (R25). -/
opaque resetChg : Nat → Bank → Chan → Bool
/-- Reset value of `tr_rise_e[ch]` (R27). -/
opaque resetRise : Nat → Chan → Bool
/-- Reset value of `tr_fall_e[ch]` (R27). -/
opaque resetFall : Nat → Chan → Bool
/-- Reset value of `tr_lvl_e[ch]` (R27). -/
opaque resetLvl : Nat → Chan → Bool
/-- What a DAC chip holds after a frame of other than 16 bits (R205; the observer only). -/
opaque dacReg : Nat → BitVec 12

end Config

end Sys2Proof
end

