-- ==== Sys2Proof/Syntax.lean ====
section
/-! DEFINITION. The commands of the block, one constructor per row of the opcode map
(spec/30_encoding.md R95). An operand is the number R93 decodes: a channel id 0 to 7, an index 0 to 3,
a signed 32-bit value. WellFormed.lean holds the ranges. -/

namespace Sys2Proof

inductive Instr where
  /-- `sys.nop` (R220). -/
  | sysNop
  /-- `sys.cycle` (R221). -/
  | sysCycle
  /-- `sys.status` (R222). -/
  | sysStatus
  /-- `an.update b, ch` (R120). -/
  | anUpdate (b : Bank) (ch : Nat)
  /-- `an.changed b, ch` (R121). -/
  | anChanged (b : Bank) (ch : Nat)
  /-- `an.raw b, ch` (R122). -/
  | anRaw (b : Bank) (ch : Nat)
  /-- `an.cur b, ch` (R124). -/
  | anCur (b : Bank) (ch : Nat)
  /-- `an.last b, ch` (R125). -/
  | anLast (b : Bank) (ch : Nat)
  /-- `tr.refresh ch` (R140). -/
  | trRefresh (ch : Nat)
  /-- `tr.rose ch` (R141). -/
  | trRose (ch : Nat)
  /-- `tr.fell ch` (R142). -/
  | trFell (ch : Nat)
  /-- `tr.high ch` (R143). -/
  | trHigh (ch : Nat)
  /-- `tr.low ch` (R144). -/
  | trLow (ch : Nat)
  /-- `tr.raw ch` (R145). -/
  | trRaw (ch : Nat)
  /-- `sc.a2m v` (R160). -/
  | scA2m (v : Int)
  /-- `sc.m2d v` (R161). -/
  | scM2d (v : Int)
  /-- `sc.a2d v` (R162). -/
  | scA2d (v : Int)
  /-- `dac.write cs, sub, v` (R190). -/
  | dacWrite (cs sub : Nat) (v : Int)
  /-- `out.write o, v` (R196). -/
  | outWrite (o : Nat) (v : Int)
deriving DecidableEq, Repr

end Sys2Proof
end

