-- ==== Sys2Proof/Machine/Operands.lean ====
section
/-! DEFINITION. Operand forms (spec/00_scope.md R11, R15; spec/30_encoding.md R93): access to a bank of
channels, valid ids, valid destinations, the routing check, clamping and result words. Nothing here
reads State. -/

namespace Sys2Proof

/-! ## Register files indexed by channel or line -/

def Four.get {α : Type} (f : Four α) : Chan → α
  | .c1 => f.c1
  | .c2 => f.c2
  | .c3 => f.c3
  | .c4 => f.c4

def Four.set {α : Type} (f : Four α) (c : Chan) (x : α) : Four α :=
  match c with
  | .c1 => { f with c1 := x }
  | .c2 => { f with c2 := x }
  | .c3 => { f with c3 := x }
  | .c4 => { f with c4 := x }

def Four.ofFn {α : Type} (g : Chan → α) : Four α := ⟨g .c1, g .c2, g .c3, g .c4⟩

def Four.map {α β : Type} (g : α → β) (f : Four α) : Four β := ⟨g f.c1, g f.c2, g f.c3, g f.c4⟩

def Banks.get {α : Type} (k : Banks α) (b : Bank) (c : Chan) : α :=
  match b with
  | .cv   => k.cv.get c
  | .knob => k.knob.get c

def Banks.set {α : Type} (k : Banks α) (b : Bank) (c : Chan) (x : α) : Banks α :=
  match b with
  | .cv   => { k with cv := k.cv.set c x }
  | .knob => { k with knob := k.knob.set c x }

def Banks.ofFn {α : Type} (g : Bank → Chan → α) : Banks α := ⟨.ofFn (g .cv), .ofFn (g .knob)⟩

def Banks.map {α β : Type} (g : α → β) (k : Banks α) : Banks β := ⟨k.cv.map g, k.knob.map g⟩

def Lines.get {α : Type} (l : Lines α) : ChipSel → α
  | .cs0 => l.cs0
  | .cs1 => l.cs1

def Lines.set {α : Type} (l : Lines α) (c : ChipSel) (x : α) : Lines α :=
  match c with
  | .cs0 => { l with cs0 := x }
  | .cs1 => { l with cs1 := x }

/-! ## Ids and destinations -/

/-- `valid(ch)` means `1 <= ch <= 4` (R15); a valid id names a channel. -/
def chan? (ch : Nat) : Option Chan :=
  match ch with
  | 1 => some .c1
  | 2 => some .c2
  | 3 => some .c3
  | 4 => some .c4
  | _ => none

/-- The id of a channel, 1 to 4. -/
def Chan.id : Chan → Nat
  | .c1 => 1
  | .c2 => 2
  | .c3 => 3
  | .c4 => 4

/-- A valid chip-select index is 0 or 1 (R182). -/
def chipSel? (cs : Nat) : Option ChipSel :=
  match cs with
  | 0 => some .cs0
  | 1 => some .cs1
  | _ => none

/-- A valid sub-DAC index is 0 or 1 (R182). -/
def subDac? (sub : Nat) : Option SubDac :=
  match sub with
  | 0 => some .chA
  | 1 => some .chB
  | _ => none

/-- The index of a line. -/
def ChipSel.index : ChipSel → Nat
  | .cs0 => 0
  | .cs1 => 1

/-- The index of a sub-DAC. -/
def SubDac.index : SubDac → Nat
  | .chA => 0
  | .chB => 1

/-- A destination `(cs, sub)` is valid iff both indices are 0 or 1 (R182); a valid one names a line
and a sub-DAC, a malformed one is rejected as a whole (R190, R195). -/
def dest? (cs sub : Nat) : Option (ChipSel × SubDac) :=
  match chipSel? cs, subDac? sub with
  | some c, some d => some (c, d)
  | _, _ => none

/-- Both indices of a routing entry are in range (R31). -/
def Dest.inRange (d : Dest) : Bool := (dest? d.cs d.sub).isSome

/-- `ROUTE_OK` (R31): every entry in range, the four entries pairwise distinct, both chips covered. -/
def routeOk (r : Four Dest) : Bool :=
  let entries := [r.c1, r.c2, r.c3, r.c4]
  entries.all Dest.inRange && decide entries.Nodup
    && entries.any (fun d => d.cs == 0) && entries.any (fun d => d.cs == 1)

/-! ## Values and results -/

/-- `clamp(v, lo, hi)` (R11). -/
def clamp (v lo hi : Int) : Int := if v < lo then lo else if hi < v then hi else v

/-- An integer as a result word, two's complement (R94). -/
def intResult (v : Int) : Word := BitVec.ofInt 32 v

/-- A Boolean as a result word: 1 or 0 (R94). -/
def boolResult (p : Bool) : Word := if p then 1#32 else 0#32

/-- `zext_32` of a sample (R11). -/
def sampleResult (x : Sample) : Word := x.setWidth 32

/-- `ERR_INVALID_ID`, -1 (R241). -/
def errInvalidId : Word := intResult (-1)

/-- `ERR_CONFIG`, -2 (R241). -/
def errConfig : Word := intResult (-2)

/-- `ERR_ILLEGAL`, -3 (R241). -/
def errIllegal : Word := intResult (-3)

end Sys2Proof
end

