-- ==== Sys2Proof/Machine/State.lean ====
section
/-! DEFINITION. The state of the block: everything spec/10_state.md R45 lists, the ports of R39, and the
model's own fields (`endedTraces`, `env`, `cfg`; logs 2, 6, 7). No program counter and no memory exist
(R20, R60). -/

namespace Sys2Proof.Machine

/-- The registers of one analog channel (R21, R25, R26) and its ghost bit (R40). -/
structure AnalogChannel where
  /-- `current[b][ch]` (R21). -/
  current : Sample
  /-- `last[b][ch]` (R21). -/
  last    : Sample
  /-- `chg[b][ch]` (R25). -/
  chg     : Bool
  /-- `smooth_state[b][ch]` (R26). -/
  smooth  : Collab Sample
  /-- `fresh_an[b][ch]`, ghost (R40). -/
  fresh   : Bool
deriving DecidableEq, Repr

/-- The latches of one trigger channel (R27, R29) and its ghost bit (R40). -/
structure TriggerChannel where
  /-- `tr_rise_e[ch]` (R27). -/
  riseE : Bool
  /-- `tr_fall_e[ch]` (R27). -/
  fallE : Bool
  /-- `tr_lvl_e[ch]`, 1 = electrically HIGH (R27). -/
  lvlE  : Bool
  /-- `deb_state[ch]` (R29). -/
  deb   : Collab Word
  /-- `fresh_tr[ch]`, ghost (R40). -/
  fresh : Bool
deriving DecidableEq, Repr

/-- The bit order of a bus transaction; the block uses this one only (R66). -/
inductive BitOrder where
  | msbFirst
deriving DecidableEq, Repr

/-- The clock mode of a bus transaction; the block uses this one only (R66). -/
inductive ClockMode where
  | cpol0Cpha0
deriving DecidableEq, Repr

/-- A diagnostic event (R245). -/
inductive Diag where
  /-- `Diag(INVALID_ID, OP, ch)`. -/
  | invalidId (op : BitVec 6) (ch : Nat)
  /-- `Diag(BAD_DEST, OP, ...)`: the command's destination operands (R190: cs, sub; R196: o). -/
  | badDest (op : BitVec 6) (operands : List Nat)
  /-- `Diag(ILLEGAL, CW)`. -/
  | illegal (cw : Word)
deriving DecidableEq, Repr

/-- An event of the trace (R42). -/
inductive Event where
  | csAssert (cs : ChipSel)
  | csDeassert (cs : ChipSel)
  | claim (hz : Nat) (order : BitOrder) (mode : ClockMode)
  | xfer (x : Byte)
  | release
  | diag (d : Diag)
deriving DecidableEq, Repr

/-- What the outside world puts on the block's inputs (R39). -/
inductive PortInput where
  /-- A command word with its operand word (R90). -/
  | command (cw arg : Word)
  /-- `rst` asserted between two commands (R270). -/
  | reset
  /-- The host sends this command and `rst` is asserted while it runs; in a DAC write, after `k` of
  the sequence's steps are done (R274; log 8). -/
  | resetDuring (cw arg : Word) (k : Nat)
deriving DecidableEq, Repr

/-- The environment (R43): the answers already settled for its next calls, next first, and the number
of free values drawn so far. A call takes the first settled answer of its list; where there is none
the answer is a free value of Config (log 2). -/
structure Env where
  raw      : List Sample
  smooth   : List (Sample × Bool)
  debounce : List DebounceReport
  pin      : List Bool
  clock    : List Word
  stale    : List Bool
  draws    : Nat
deriving DecidableEq, Repr

structure State where
  /-- The parameters (R9); no command changes them (log 6). -/
  cfg         : Params
  /-- The eight analog channels (R21). -/
  analog      : Banks AnalogChannel
  /-- The four trigger channels (R27). -/
  trigger     : Four TriggerChannel
  /-- `cs_n[0]` and `cs_n[1]`: true is 1, de-asserted (R33). -/
  csN         : Lines Bool
  /-- `bus_owned` (R34). -/
  busOwned    : Bool
  /-- `busy` (R35). -/
  busy        : Bool
  /-- `cfg_err` (R36). -/
  cfgErr      : Bool
  /-- `trace`, ghost, oldest event first (R42). -/
  trace       : List Event
  /-- The traces of the runs that earlier resets ended (log 7). -/
  endedTraces : List (List Event)
  /-- Every word the result port returned, oldest first (R39, R94; log 5). -/
  results     : List Word
  /-- The inputs the block has not taken yet, next first (R39; log 1). -/
  port        : List PortInput
  /-- The environment (log 2). -/
  env         : Env
deriving DecidableEq, Repr

/-- Why the machine stops: never. No command traps, aborts, halts or stalls the block (R240), so the
type has no constructor. Safe: nothing stops early. -/
inductive Fault where
deriving DecidableEq, Repr

/-- Why an instruction has no meaning. -/
inductive Refusal where
  /-- Raised by an arm of `exec` that has no meaning yet; no arm raises it. Safe. -/
  | notModelled (mnemonic : String)
deriving DecidableEq, Repr

/-- An analog channel after reset number `n`: registers and latch unspecified, collaborator
unspecified, ghost bit 0 (R24, R25, R26, R40; logs 3, 4). -/
def AnalogChannel.afterReset (n : Nat) (b : Bank) (c : Chan) : AnalogChannel where
  current := Config.resetCurrent n b c
  last    := Config.resetLast n b c
  chg     := Config.resetChg n b c
  smooth  := ⟨n, []⟩
  fresh   := false

/-- A trigger channel after reset number `n` (R27, R29, R40; logs 3, 4). -/
def TriggerChannel.afterReset (n : Nat) (c : Chan) : TriggerChannel where
  riseE := Config.resetRise n c
  fallE := Config.resetFall n c
  lvlE  := Config.resetLvl n c
  deb   := ⟨n, []⟩
  fresh := false

/-- The block after a reset whose unspecified values are draw number `n`, under the parameters `p`,
with no input pending (R45, R270, R271). -/
def State.afterReset (p : Params) (n : Nat) : State where
  cfg         := p
  analog      := .ofFn (AnalogChannel.afterReset n)
  trigger     := .ofFn (TriggerChannel.afterReset n)
  csN         := ⟨true, true⟩
  busOwned    := false
  busy        := false
  cfgErr      := !routeOk p.route
  trace       := []
  endedTraces := []
  results     := []
  port        := []
  env         := ⟨[], [], [], [], [], [], n + 1⟩

/-- The block right after reset, in its default configuration. -/
def State.reset : State := State.afterReset Config.params 0

end Sys2Proof.Machine
end

