-- ==== Sys2Proof/Machine/Ops.lean ====
section
/-! DEFINITION. The shared operations on State: results, diagnostics and rejection
(spec/60_exceptions.md R241, R245), the external access primitives (spec/20_memory.md R61 to R67), the
stale-query rule (spec/10_state.md R41), and reset (spec/70_reset_and_hazards.md R270 to R274). The
block has no exception to take and none to return from (R247, R248): rejecting a command is what
stands in their place. -/

namespace Sys2Proof.Machine

/-- What a meaning answers. -/
abbrev Answer := Host.Outcome State Fault Refusal

/-! ## Registers -/

/-- The registers of analog channel `(b, c)`. -/
def State.channel (s : State) (b : Bank) (c : Chan) : AnalogChannel := s.analog.get b c

def State.setChannel (s : State) (b : Bank) (c : Chan) (x : AnalogChannel) : State :=
  { s with analog := s.analog.set b c x }

/-- The latches of trigger channel `c`. -/
def State.trig (s : State) (c : Chan) : TriggerChannel := s.trigger.get c

def State.setTrig (s : State) (c : Chan) (x : TriggerChannel) : State :=
  { s with trigger := s.trigger.set c x }

def State.setCsN (s : State) (c : ChipSel) (level : Bool) : State :=
  { s with csN := s.csN.set c level }

def State.setBusOwned (s : State) (p : Bool) : State := { s with busOwned := p }

def State.setBusy (s : State) (p : Bool) : State := { s with busy := p }

def State.setEnv (s : State) (e : Env) : State := { s with env := e }

def State.setPort (s : State) (p : List PortInput) : State := { s with port := p }

/-! ## Results, events, rejection -/

/-- `RSP <- r` (R12, R94). -/
def State.respond (s : State) (r : Word) : State := { s with results := s.results ++ [r] }

/-- `Emit(e)`: the event is appended to the trace and nothing else changes (R67). -/
def State.emit (s : State) (e : Event) : State := { s with trace := s.trace ++ [e] }

/-- A diagnostic is emitted when `DIAG_EMIT` is true (R245). -/
def State.emitDiag (s : State) (d : Diag) : State :=
  { s with trace := s.trace ++ if s.cfg.diagEmit then [.diag d] else [] }

/-- A rejected command: an optional diagnostic, its code, and no other effect (R243, R245, R247). -/
def State.reject (s : State) (d : Diag) (code : Word) : State := (s.emitDiag d).respond code

/-- An illegal command word (R97). -/
def rejectIllegal (cw : Word) (s : State) : State := s.reject (.illegal cw) errIllegal

/-! ## Inputs from the environment (R61 to R65, R41)

Each takes the next settled answer, or a free value where none is settled, and changes nothing of the
block. The Boolean `STALE_POLICY` draw of R41 has the same form. -/

def Env.rawAnswer (e : Env) (b : Bank) (c : Chan) : Sample :=
  e.raw.headD (Config.rawSample b c e.draws)

def Env.afterRaw (e : Env) : Env := { e with raw := e.raw.tail, draws := e.draws + 1 }

/-- `ReadRaw(b, ch)` (R61). -/
def readRaw (b : Bank) (c : Chan) (s : State) : Sample × State :=
  (s.env.rawAnswer b c, s.setEnv s.env.afterRaw)

/-- A collaborator given one more input (R62, R63). -/
def feedCollab {α : Type} (k : Collab α) (x : α) : Collab α := { k with fed := k.fed ++ [x] }

def Env.smoothAnswer (e : Env) (b : Bank) (c : Chan) (k : Collab Sample) : Sample × Bool :=
  e.smooth.headD (Config.smooth b c k e.draws)

def Env.afterSmooth (e : Env) : Env := { e with smooth := e.smooth.tail, draws := e.draws + 1 }

/-- `SmoothUpdate(b, ch, raw)` (R62): the collaborator takes the sample and reports. -/
def smoothUpdate (b : Bank) (c : Chan) (raw : Sample) (s : State) : (Sample × Bool) × State :=
  let x := s.channel b c
  let k := feedCollab x.smooth raw
  (s.env.smoothAnswer b c k, (s.setChannel b c { x with smooth := k }).setEnv s.env.afterSmooth)

def Env.debounceAnswer (e : Env) (c : Chan) (k : Collab Word) : DebounceReport :=
  e.debounce.headD (Config.debounce c k e.draws)

def Env.afterDebounce (e : Env) : Env := { e with debounce := e.debounce.tail, draws := e.draws + 1 }

/-- `DebounceRefresh(ch, t)` (R63): the collaborator takes the time and reports. -/
def debounceRefresh (c : Chan) (t : Word) (s : State) : DebounceReport × State :=
  let x := s.trig c
  let k := feedCollab x.deb t
  (s.env.debounceAnswer c k, (s.setTrig c { x with deb := k }).setEnv s.env.afterDebounce)

def Env.pinAnswer (e : Env) (c : Chan) : Bool := e.pin.headD (Config.pinLevel c e.draws)

def Env.afterPin (e : Env) : Env := { e with pin := e.pin.tail, draws := e.draws + 1 }

/-- `ReadPin(ch)` (R64). -/
def readPin (c : Chan) (s : State) : Bool × State := (s.env.pinAnswer c, s.setEnv s.env.afterPin)

def Env.clockAnswer (e : Env) : Word := e.clock.headD (Config.nowMs e.draws)

def Env.afterClock (e : Env) : Env := { e with clock := e.clock.tail, draws := e.draws + 1 }

/-- `NowMs()` (R65). -/
def nowMs (s : State) : Word × State := (s.env.clockAnswer, s.setEnv s.env.afterClock)

def Env.staleAnswer (e : Env) : Bool := e.stale.headD (Config.staleAnswer e.draws)

def Env.afterStale (e : Env) : Env := { e with stale := e.stale.tail, draws := e.draws + 1 }

/-- `draw {0,1}` of a stale query (R41). -/
def drawStale (s : State) : Bool × State := (s.env.staleAnswer, s.setEnv s.env.afterStale)

/-- A Boolean query of a latch: the latch when the channel is fresh; when it is stale, a draw or the
latch as `STALE_POLICY` says (R41, R121, R141 to R144). -/
def answerQuery (fresh latch : Bool) (s : State) : State :=
  if fresh then s.respond (boolResult latch)
  else match s.cfg.stalePolicy with
    | .draw  => (drawStale s).2.respond (boolResult (drawStale s).1)
    | .latch => s.respond (boolResult latch)

/-! ## Bus and chip-select primitives (R66, R67) -/

def csAssert (c : ChipSel) (s : State) : State := (s.setCsN c false).emit (.csAssert c)

def csDeassert (c : ChipSel) (s : State) : State := (s.setCsN c true).emit (.csDeassert c)

/-- `BusClaim(DAC_SCK_HZ, MSB_FIRST, CPOL0_CPHA0)`; it succeeds at once (R66, R81). -/
def busClaim (s : State) : State :=
  (s.setBusOwned true).emit (.claim s.cfg.dacSckHz .msbFirst .cpol0Cpha0)

def busTransmit (x : Byte) (s : State) : State := s.emit (.xfer x)

def busRelease (s : State) : State := (s.setBusOwned false).emit .release

/-! ## Polling cycle and reset -/

/-- A new polling cycle: every ghost bit 0 (R221). -/
def State.clearFresh (s : State) : State :=
  { s with analog  := s.analog.map fun x => { x with fresh := false },
           trigger := s.trigger.map fun x => { x with fresh := false } }

/-- The events with which reset abandons a DAC write: `Release` if the bus is owned, then
`CsDeassert` of a line that is low (R274). -/
def abandonEvents (s : State) : List Event :=
  (if s.busOwned then [.release] else [])
    ++ (if s.csN.cs0 then [] else [.csDeassert .cs0])
    ++ (if s.csN.cs1 then [] else [.csDeassert .cs1])

/-- `rst` (R270 to R274): every state element at its reset value, the unspecified ones drawn anew; the
trace ends with the events of R274 and starts again empty (log 7). The parameters, the host's inputs,
the results already returned and the environment's settled answers are not the block's to reset. -/
def rst (s : State) : State :=
  { State.afterReset s.cfg s.env.draws with
    endedTraces := s.endedTraces ++ [s.trace ++ abandonEvents s]
    results     := s.results
    port        := s.port
    env         := { s.env with draws := s.env.draws + 1 } }

end Sys2Proof.Machine
end

