-- ==== Sys2Proof/Machine/Analog.lean ====
section
/-! DEFINITION. Analog channel commands (spec/41_analog.md). -/

namespace Sys2Proof.Machine

/-- A valid `an.update` (R120): sample, advance the collaborator, then shift the history. -/
def updateChannel (b : Bank) (c : Chan) (s : State) : State :=
  let sampled  := readRaw b c s
  let reported := smoothUpdate b c sampled.1 sampled.2
  let x        := reported.2.channel b c
  (reported.2.setChannel b c
    { x with last := x.current, current := reported.1.1, chg := reported.1.2, fresh := true }).respond
      (sampleResult reported.1.1)

/-- `an.update b, ch` (R120). -/
def execAnUpdate (b : Bank) (ch : Nat) (s : State) : Answer :=
  match chan? ch with
  | none   => .next (s.reject (.invalidId 0x08#6 ch) errInvalidId)
  | some c => .next (updateChannel b c s)

/-- `an.changed b, ch` (R121). -/
def execAnChanged (b : Bank) (ch : Nat) (s : State) : Answer :=
  match chan? ch with
  | none   => .next (s.reject (.invalidId 0x09#6 ch) (boolResult false))
  | some c => .next (answerQuery (s.channel b c).fresh (s.channel b c).chg s)

/-- `an.raw b, ch` (R122). -/
def execAnRaw (b : Bank) (ch : Nat) (s : State) : Answer :=
  match chan? ch with
  | none   => .next (s.reject (.invalidId 0x0A#6 ch) errInvalidId)
  | some c => .next ((readRaw b c s).2.respond (sampleResult (readRaw b c s).1))

/-- `an.cur b, ch` (R124). -/
def execAnCur (b : Bank) (ch : Nat) (s : State) : Answer :=
  match chan? ch with
  | none   => .next (s.reject (.invalidId 0x0B#6 ch) errInvalidId)
  | some c => .next (s.respond (sampleResult (s.channel b c).current))

/-- `an.last b, ch` (R125). -/
def execAnLast (b : Bank) (ch : Nat) (s : State) : Answer :=
  match chan? ch with
  | none   => .next (s.reject (.invalidId 0x0C#6 ch) errInvalidId)
  | some c => .next (s.respond (sampleResult (s.channel b c).last))

end Sys2Proof.Machine
end

