-- ==== Sys2Proof/WellFormed.lean ====
section
/-! DEFINITION. Which commands have an encoding: the ranges of the operand fields (spec/30_encoding.md
R91, R93). An id or index outside its valid set but inside its field is well formed (R96). -/

namespace Sys2Proof

/-- `CH` is three bits: ids 0 to 7 (R91, R93). -/
def chanEncodable (ch : Nat) : Bool := ch ≤ 7

/-- `CS` and `SUB` are two bits: indices 0 to 3 (R91, R93). -/
def indexEncodable (n : Nat) : Bool := n ≤ 3

/-- `ARG` is a 32-bit two's complement integer (R93). -/
def argEncodable (v : Int) : Bool := -2 ^ 31 ≤ v && v ≤ 2 ^ 31 - 1

/-- Every operand fits its field. -/
def Instr.wellFormed : Instr → Bool
  | .sysNop | .sysCycle | .sysStatus => true
  | .anUpdate _ ch | .anChanged _ ch | .anRaw _ ch | .anCur _ ch | .anLast _ ch => chanEncodable ch
  | .trRefresh ch | .trRose ch | .trFell ch | .trHigh ch | .trLow ch | .trRaw ch => chanEncodable ch
  | .scA2m v | .scM2d v | .scA2d v => argEncodable v
  | .dacWrite cs sub v => indexEncodable cs && indexEncodable sub && argEncodable v
  | .outWrite o v => chanEncodable o && argEncodable v

end Sys2Proof
end

