-- ==== Sys2Proof/Decode.lean ====
section
/-! DEFINITION. The command encoding (spec/30_encoding.md R90 to R99): the decoder, total on every pair
of words, and the encoder. -/

namespace Sys2Proof

/-- The four formats (R92). -/
inductive Format where
  | N
  | A
  | T
  | D
deriving DecidableEq, Repr

/-- The mask of fixed bits of a format (R92). -/
def Format.mask : Format → Word
  | .N => 0xFFFFFFFF#32
  | .A => 0xFC3FFFFF#32
  | .T => 0xFE3FFFFF#32
  | .D => 0xFFC3FFFF#32

/-- The operands a row's command is built from (R93). -/
structure Operands where
  b   : Bank
  ch  : Nat
  cs  : Nat
  sub : Nat
  v   : Int
deriving DecidableEq, Repr

/-- Operand decoding (R93): `B` is bit 25, `CH` bits 24:22, `CS` bits 21:20, `SUB` bits 19:18, and `ARG`
is read as a signed integer. -/
def operandsOf (cw arg : Word) : Operands where
  b   := if cw.getLsbD 25 then .knob else .cv
  ch  := (cw.extractLsb' 22 3).toNat
  cs  := (cw.extractLsb' 20 2).toNat
  sub := (cw.extractLsb' 18 2).toNat
  v   := arg.toInt

/-- The opcode field, bits 31:26 (R91). -/
def opField (cw : Word) : BitVec 6 := cw.extractLsb' 26 6

/-- A row of the opcode map: its `CW` match, its format, and the command its operands make (R95). -/
structure Row where
  pattern : Word
  format  : Format
  build   : Operands → Instr

/-- The opcode map (R95). -/
def opcodeMap : List Row :=
  [ ⟨0x00000000#32, .N, fun _ => .sysNop⟩,
    ⟨0x04000000#32, .N, fun _ => .sysCycle⟩,
    ⟨0x08000000#32, .N, fun _ => .sysStatus⟩,
    ⟨0x20000000#32, .A, fun f => .anUpdate f.b f.ch⟩,
    ⟨0x24000000#32, .A, fun f => .anChanged f.b f.ch⟩,
    ⟨0x28000000#32, .A, fun f => .anRaw f.b f.ch⟩,
    ⟨0x2C000000#32, .A, fun f => .anCur f.b f.ch⟩,
    ⟨0x30000000#32, .A, fun f => .anLast f.b f.ch⟩,
    ⟨0x40000000#32, .T, fun f => .trRefresh f.ch⟩,
    ⟨0x44000000#32, .T, fun f => .trRose f.ch⟩,
    ⟨0x48000000#32, .T, fun f => .trFell f.ch⟩,
    ⟨0x4C000000#32, .T, fun f => .trHigh f.ch⟩,
    ⟨0x50000000#32, .T, fun f => .trLow f.ch⟩,
    ⟨0x54000000#32, .T, fun f => .trRaw f.ch⟩,
    ⟨0x60000000#32, .N, fun f => .scA2m f.v⟩,
    ⟨0x64000000#32, .N, fun f => .scM2d f.v⟩,
    ⟨0x68000000#32, .N, fun f => .scA2d f.v⟩,
    ⟨0x80000000#32, .D, fun f => .dacWrite f.cs f.sub f.v⟩,
    ⟨0x84000000#32, .T, fun f => .outWrite f.ch f.v⟩ ]

/-- A row is selected when `(CW AND mask) = match` (R95). -/
def Row.selects (r : Row) (cw : Word) : Bool := cw &&& r.format.mask == r.pattern

/-- Why a command word is illegal (R97). -/
inductive Illegal where
  /-- Its `OP` is reserved (R98). -/
  | reservedOp (op : BitVec 6)
  /-- A must-be-zero field of its format is not zero (R92). -/
  | mustBeZero (cw : Word)
deriving DecidableEq, Repr

/-- The reserved `OP` values: those no row has (R95, R98). -/
def reservedOp (op : BitVec 6) : Bool := opcodeMap.all fun r => opField r.pattern != op

/-- The decoder: every pair of words is one command or illegal (R99). A command that does not use `ARG`
ignores its value (R90). -/
def decode (cw arg : Word) : Except Illegal Instr :=
  match opcodeMap.find? fun r => r.selects cw with
  | some r => .ok (r.build (operandsOf cw arg))
  | none   => .error (if reservedOp (opField cw) then .reservedOp (opField cw) else .mustBeZero cw)

/-- `B` in its place (R91). -/
def bankBits : Bank → Word
  | .cv   => 0#32
  | .knob => 0x02000000#32

/-- `CH` in its place (R91). -/
def chanBits (ch : Nat) : Word := BitVec.ofNat 32 ch <<< 22

/-- `CS` in its place (R91). -/
def csBits (cs : Nat) : Word := BitVec.ofNat 32 cs <<< 20

/-- `SUB` in its place (R91). -/
def subBits (sub : Nat) : Word := BitVec.ofNat 32 sub <<< 18

/-- The words of a well-formed command: `CW` and `ARG`. A command that does not use `ARG` is given
`ARG = 0`, as the assembler does (R100). The `CW` formulas are those of the command's own rule. -/
def encode : Instr → Word × Word
  | .sysNop           => (0x00000000#32, 0#32)
  | .sysCycle         => (0x04000000#32, 0#32)
  | .sysStatus        => (0x08000000#32, 0#32)
  | .anUpdate b ch    => (0x20000000#32 ||| bankBits b ||| chanBits ch, 0#32)
  | .anChanged b ch   => (0x24000000#32 ||| bankBits b ||| chanBits ch, 0#32)
  | .anRaw b ch       => (0x28000000#32 ||| bankBits b ||| chanBits ch, 0#32)
  | .anCur b ch       => (0x2C000000#32 ||| bankBits b ||| chanBits ch, 0#32)
  | .anLast b ch      => (0x30000000#32 ||| bankBits b ||| chanBits ch, 0#32)
  | .trRefresh ch     => (0x40000000#32 ||| chanBits ch, 0#32)
  | .trRose ch        => (0x44000000#32 ||| chanBits ch, 0#32)
  | .trFell ch        => (0x48000000#32 ||| chanBits ch, 0#32)
  | .trHigh ch        => (0x4C000000#32 ||| chanBits ch, 0#32)
  | .trLow ch         => (0x50000000#32 ||| chanBits ch, 0#32)
  | .trRaw ch         => (0x54000000#32 ||| chanBits ch, 0#32)
  | .scA2m v          => (0x60000000#32, BitVec.ofInt 32 v)
  | .scM2d v          => (0x64000000#32, BitVec.ofInt 32 v)
  | .scA2d v          => (0x68000000#32, BitVec.ofInt 32 v)
  | .dacWrite cs sub v => (0x80000000#32 ||| csBits cs ||| subBits sub, BitVec.ofInt 32 v)
  | .outWrite o v     => (0x84000000#32 ||| chanBits o, BitVec.ofInt 32 v)

/-- The opcode a command carries, as a diagnostic names it (R95, R245). -/
def Instr.opcode (i : Instr) : BitVec 6 := opField (encode i).1

/-- Does the command read `ARG` (R95, column "uses ARG")? -/
def Instr.usesArg : Instr → Bool
  | .scA2m _ | .scM2d _ | .scA2d _ | .dacWrite _ _ _ | .outWrite _ _ => true
  | .sysNop | .sysCycle | .sysStatus => false
  | .anUpdate _ _ | .anChanged _ _ | .anRaw _ _ | .anCur _ _ | .anLast _ _ => false
  | .trRefresh _ | .trRose _ | .trFell _ | .trHigh _ | .trLow _ | .trRaw _ => false

/-- `CW` of a command given as one number: bits 31:0 (log 14). -/
def tableCw (nbits w : Nat) : Word := BitVec.ofNat 32 (w % 2 ^ nbits)

/-- `ARG` of a command given as one number: bits 63:32 (log 14). -/
def tableArg (nbits w : Nat) : Word := BitVec.ofNat 32 (w % 2 ^ nbits / 2 ^ 32)

/-- The command the decoder reads from an instruction whose bits are `w`, numbered as the opcode table
numbers them, every bit from `nbits` up being 0. -/
def decodeTableWord (nbits w : Nat) : Option Instr :=
  match decode (tableCw nbits w) (tableArg nbits w) with
  | .ok i    => some i
  | .error _ => none

end Sys2Proof
end

