-- ==== Sys2Proof/Machine/Dac.lean ====
section
/-! DEFINITION. DAC routing, framing and chip-select sequencing (spec/44_dac.md). -/

namespace Sys2Proof.Machine

/-! ## The DacFrame (R183 to R185) -/

/-- The value conditioned to 12 bits by clamping, never by truncating (R184). -/
def v12 (v : Int) : BitVec 12 := BitVec.ofInt 12 (clamp v 0 4095)

/-- `DF[15]`: 0 selects the A channel, 1 the B channel (R183). -/
def subDacBit : SubDac → BitVec 1
  | .chA => 0#1
  | .chB => 1#1

/-- `DF = {sub[0], DAC_CTRL3[2:0], v12[11:0]}` (R183). -/
def dacFrame (ctrl3 : BitVec 3) (d : SubDac) (v : Int) : BitVec 16 := subDacBit d ++ ctrl3 ++ v12 v

/-- `hi = DF[15:8]` (R185). -/
def frameHi (df : BitVec 16) : Byte := df.extractLsb' 8 8

/-- `lo = DF[7:0]` (R185). -/
def frameLo (df : BitVec 16) : Byte := df.extractLsb' 0 8

/-! ## The sequence (R190, R191) -/

/-- One step of `DacWrite` after the guard has let it in. -/
inductive SeqStep where
  | setBusy
  | assertLine (c : ChipSel)
  | claimBus
  | send (x : Byte)
  | releaseBus
  | deassertLine (c : ChipSel)
  | clearBusy
deriving DecidableEq, Repr

def SeqStep.run (q : SeqStep) (s : State) : State :=
  match q with
  | .setBusy        => s.setBusy true
  | .assertLine c   => csAssert c s
  | .claimBus       => busClaim s
  | .send x         => busTransmit x s
  | .releaseBus     => busRelease s
  | .deassertLine c => csDeassert c s
  | .clearBusy      => s.setBusy false

/-- The steps of `DacWrite(cs, sub, v)` in their normative order (R190, R191). -/
def dacSequence (p : Params) (c : ChipSel) (d : SubDac) (v : Int) : List SeqStep :=
  let df := dacFrame p.dacCtrl3 d v
  [.setBusy, .assertLine c, .claimBus, .send (frameHi df), .send (frameLo df), .releaseBus,
    .deassertLine c, .clearBusy]

/-- The steps done one after another. -/
def runSequence (q : List SeqStep) (s : State) : State := q.foldl (fun t x => x.run t) s

/-- A request made while `busy = 1` holds: the command stays at the head of the command port, and
nothing else happens (R193; log 9). -/
def holdRequest (i : Instr) (s : State) : State :=
  s.setPort (.command (encode i).1 (encode i).2 :: s.port)

/-- `DacWrite(cs, sub, v)` on behalf of command `i`, then `RSP <- 0` (R190). -/
def dacWrite (i : Instr) (c : ChipSel) (d : SubDac) (v : Int) (s : State) : State :=
  if s.busy then holdRequest i s
  else (runSequence (dacSequence s.cfg c d v) s).respond 0#32

/-! ## The commands -/

/-- `dac.write cs, sub, v` (R190, R195). -/
def execDacWrite (cs sub : Nat) (v : Int) (s : State) : Answer :=
  match dest? cs sub with
  | none        => .next (s.reject (.badDest 0x20#6 [cs, sub]) errConfig)
  | some (c, d) => .next (dacWrite (.dacWrite cs sub v) c d v s)

/-- Where logical output `c` goes: the routing table's entry, unless the table failed its validation
(R180, R197). An entry out of range has no destination whatever `cfg_err` says (R195; log 10). -/
def routed? (c : Chan) (s : State) : Option (ChipSel × SubDac) :=
  if s.cfgErr then none else dest? (s.cfg.route.get c).cs (s.cfg.route.get c).sub

/-- `out.write o, v` (R196, R197). The id is checked before the table it indexes (R244). -/
def execOutWrite (o : Nat) (v : Int) (s : State) : Answer :=
  match chan? o with
  | none   => .next (s.reject (.invalidId 0x21#6 o) errInvalidId)
  | some c =>
    match routed? c s with
    | none        => .next (s.reject (.badDest 0x21#6 [o]) errConfig)
    | some (l, d) => .next (dacWrite (.outWrite o v) l d v s)

/-! ## A DAC write cut short by reset (R274) -/

/-- The destination and value of the DAC write a command makes in a state, if it makes one. -/
def dacRequest? (i : Instr) (s : State) : Option (ChipSel × SubDac × Int) :=
  match i with
  | .dacWrite cs sub v => (dest? cs sub).map fun p => (p.1, p.2, v)
  | .outWrite o v =>
    match chan? o with
    | none   => none
    | some c => (routed? c s).map fun p => (p.1, p.2, v)
  | .sysNop | .sysCycle | .sysStatus => none
  | .anUpdate _ _ | .anChanged _ _ | .anRaw _ _ | .anCur _ _ | .anLast _ _ => none
  | .trRefresh _ | .trRose _ | .trFell _ | .trHigh _ | .trLow _ | .trRaw _ => none
  | .scA2m _ | .scM2d _ | .scA2d _ => none

/-- The state when `rst` comes: the first `k` steps of the command's DAC write are done. A command that
makes no DAC write does all it does in one step at its end (R13), so nothing of it is done yet, and
neither is anything of a write that is still waiting for the guard (log 8). -/
def cutWrite (i : Instr) (k : Nat) (s : State) : State :=
  match dacRequest? i s with
  | none => s
  | some (c, d, v) =>
    if s.busy then s else runSequence ((dacSequence s.cfg c d v).take k) s

end Sys2Proof.Machine
end

