-- ==== Sys2Proof/Machine/Scale.lean ====
section
/-! DEFINITION. Scale conversion commands (spec/43_scale.md): exact integer arithmetic on the clamped
operand, truncating (R163, R164). -/

namespace Sys2Proof.Machine

/-- `analogToMidi` (R160). -/
def analogToMidi (v : Int) : Int := clamp v 0 1023 >>> (3 : Nat)

/-- `midiToDac` (R161). -/
def midiToDac (v : Int) : Int := (clamp v 0 127 * 4095).tdiv 127

/-- `analogToDac` (R162). -/
def analogToDac (v : Int) : Int := (clamp v 0 1023 * 4095).tdiv 1023

/-- `sc.a2m v` (R160). -/
def execScA2m (v : Int) (s : State) : Answer := .next (s.respond (intResult (analogToMidi v)))

/-- `sc.m2d v` (R161). -/
def execScM2d (v : Int) (s : State) : Answer := .next (s.respond (intResult (midiToDac v)))

/-- `sc.a2d v` (R162). -/
def execScA2d (v : Int) (s : State) : Answer := .next (s.respond (intResult (analogToDac v)))

end Sys2Proof.Machine
end

