-- ==== Sys2Proof/Machine/Flags.lean ====
section
/-! DEFINITION. The status word (spec/10_state.md R37). The block has no condition codes and no
arithmetic flags (R38); the status bits are `cfg_err`, `busy`, `cs_n` and the latches. -/

namespace Sys2Proof.Machine

/-- `STATUS`: `CFG_ERR` in bit 0, `BUSY` in bit 1, `CS_N` in bits 3:2, bits 31:4 read as 0 (R37, R222). -/
def statusWord (s : State) : Word :=
  (BitVec.ofBool s.csN.cs1 ++ BitVec.ofBool s.csN.cs0 ++ BitVec.ofBool s.busy
    ++ BitVec.ofBool s.cfgErr).setWidth 32

end Sys2Proof.Machine
end

