-- ==== Sys2Proof/Machine/System.lean ====
section
/-! DEFINITION. System commands (spec/45_system.md). -/

namespace Sys2Proof.Machine

/-- `sys.nop` (R220). -/
def execSysNop (s : State) : Answer := .next (s.respond 0#32)

/-- `sys.cycle` (R221). -/
def execSysCycle (s : State) : Answer := .next (s.clearFresh.respond 0#32)

/-- `sys.status` (R222). -/
def execSysStatus (s : State) : Answer := .next (s.respond (statusWord s))

end Sys2Proof.Machine
end

