-- ==== Sys2Proof/Machine/Trigger.lean ====
section
/-! DEFINITION. Trigger channel commands (spec/42_trigger.md). The queries present logical polarity: an
electrical fall is a logical rise, an electrically LOW level is logically high (R28, R141 to R144). -/

namespace Sys2Proof.Machine

/-- A valid `tr.refresh` (R140): read the clock, advance the collaborator, latch its report. -/
def refreshTrigger (c : Chan) (s : State) : State :=
  let timed    := nowMs s
  let reported := debounceRefresh c timed.1 timed.2
  let x        := reported.2.trig c
  (reported.2.setTrig c
    { x with riseE := reported.1.rise, fallE := reported.1.fall, lvlE := reported.1.level,
             fresh := true }).respond 0#32

/-- `tr.refresh ch` (R140). -/
def execTrRefresh (ch : Nat) (s : State) : Answer :=
  match chan? ch with
  | none   => .next (s.reject (.invalidId 0x10#6 ch) errInvalidId)
  | some c => .next (refreshTrigger c s)

/-- `tr.rose ch` (R141). -/
def execTrRose (ch : Nat) (s : State) : Answer :=
  match chan? ch with
  | none   => .next (s.reject (.invalidId 0x11#6 ch) (boolResult false))
  | some c => .next (answerQuery (s.trig c).fresh (s.trig c).fallE s)

/-- `tr.fell ch` (R142). -/
def execTrFell (ch : Nat) (s : State) : Answer :=
  match chan? ch with
  | none   => .next (s.reject (.invalidId 0x12#6 ch) (boolResult false))
  | some c => .next (answerQuery (s.trig c).fresh (s.trig c).riseE s)

/-- `tr.high ch` (R143). -/
def execTrHigh (ch : Nat) (s : State) : Answer :=
  match chan? ch with
  | none   => .next (s.reject (.invalidId 0x13#6 ch) (boolResult false))
  | some c => .next (answerQuery (s.trig c).fresh (!(s.trig c).lvlE) s)

/-- `tr.low ch` (R144). -/
def execTrLow (ch : Nat) (s : State) : Answer :=
  match chan? ch with
  | none   => .next (s.reject (.invalidId 0x14#6 ch) (boolResult false))
  | some c => .next (answerQuery (s.trig c).fresh (s.trig c).lvlE s)

/-- `tr.raw ch` (R145): the electrical level, not inverted. -/
def execTrRaw (ch : Nat) (s : State) : Answer :=
  match chan? ch with
  | none   => .next (s.reject (.invalidId 0x15#6 ch) errInvalidId)
  | some c => .next ((readPin c s).2.respond (boolResult (readPin c s).1))

end Sys2Proof.Machine
end

