-- ==== Sys2Proof/Machine/Dispatch.lean ====
section
/-! DEFINITION. One arm per command of spec/30_encoding.md R95. -/

namespace Sys2Proof.Machine

def exec (i : Instr) (s : State) : Host.Outcome State Fault Refusal :=
  match i with
  -- spec/45_system.md
  | .sysNop => Sys2Proof.Machine.execSysNop s
  | .sysCycle => Sys2Proof.Machine.execSysCycle s
  | .sysStatus => Sys2Proof.Machine.execSysStatus s
  -- spec/41_analog.md
  | .anUpdate b ch => Sys2Proof.Machine.execAnUpdate b ch s
  | .anChanged b ch => Sys2Proof.Machine.execAnChanged b ch s
  | .anRaw b ch => Sys2Proof.Machine.execAnRaw b ch s
  | .anCur b ch => Sys2Proof.Machine.execAnCur b ch s
  | .anLast b ch => Sys2Proof.Machine.execAnLast b ch s
  -- spec/42_trigger.md
  | .trRefresh ch => Sys2Proof.Machine.execTrRefresh ch s
  | .trRose ch => Sys2Proof.Machine.execTrRose ch s
  | .trFell ch => Sys2Proof.Machine.execTrFell ch s
  | .trHigh ch => Sys2Proof.Machine.execTrHigh ch s
  | .trLow ch => Sys2Proof.Machine.execTrLow ch s
  | .trRaw ch => Sys2Proof.Machine.execTrRaw ch s
  -- spec/43_scale.md
  | .scA2m v => Sys2Proof.Machine.execScA2m v s
  | .scM2d v => Sys2Proof.Machine.execScM2d v s
  | .scA2d v => Sys2Proof.Machine.execScA2d v s
  -- spec/44_dac.md
  | .dacWrite cs sub v => Sys2Proof.Machine.execDacWrite cs sub v s
  | .outWrite o v => Sys2Proof.Machine.execOutWrite o v s

end Sys2Proof.Machine
end

