-- ==== Sys2Proof/Machine/Fetch.lean ====
section
/-! DEFINITION. Taking the next input from the ports (spec/10_state.md R39). The block fetches no
instruction (R20): the host's commands arrive on the command port, and `rst` on its own input. -/

namespace Sys2Proof.Machine

/-- What the block has to do next. -/
inductive Taken where
  /-- Run this command in this state. -/
  | run (i : Instr) (s : State)
  /-- Nothing is left to run: this is the state after the input. -/
  | done (s : State)
deriving Repr

/-- A command word arrives (R90): it is a command or illegal (R97, R99). -/
def takeCommand (cw arg : Word) (s : State) : Taken :=
  match decode cw arg with
  | .ok i    => .run i s
  | .error _ => .done (rejectIllegal cw s)

/-- `rst` while a command runs (R274): the command is abandoned and returns no `RSP`. -/
def resetDuring (cw arg : Word) (k : Nat) (s : State) : State :=
  match decode cw arg with
  | .ok i    => rst (cutWrite i k s)
  | .error _ => rst s

/-- The next input. With none, the block waits (R273; log 1). -/
def takeInput (s : State) : Taken :=
  match s.port with
  | [] => .done s
  | .command cw arg :: rest => takeCommand cw arg (s.setPort rest)
  | .reset :: rest => .done (rst (s.setPort rest))
  | .resetDuring cw arg k :: rest => .done (resetDuring cw arg k (s.setPort rest))

/-- The command word a table row stands for, put where the block takes its next command. -/
def placeCommand (s : State) (nbits w : Nat) : State :=
  s.setPort (.command (tableCw nbits w) (tableArg nbits w) :: s.port)

end Sys2Proof.Machine
end

