-- ==== Sys2Proof/Machine/Observer.lean ====
section
/-! DEFINITION. What the trace says at the pins and at the far end: the bits on SDO (spec/20_memory.md
R67, R68) and the observer of the DAC chips (spec/44_dac.md R205). Neither is state of the block; both
are functions of the trace. -/

namespace Sys2Proof.Machine

/-! ## The pins SCK and SDO -/

/-- The bits of a byte in the order they leave: `x[7]` first (R67). -/
def byteBits (x : Byte) : List Bool := [7, 6, 5, 4, 3, 2, 1, 0].map x.getLsbD

/-- The bits a trace puts on SDO, in order (R68). -/
def sdoBits (t : List Event) : List Bool :=
  t.flatMap fun e =>
    match e with
    | .xfer x => byteBits x
    | .csAssert _ | .csDeassert _ | .claim _ _ _ | .release | .diag _ => []

/-- The levels of the two pins over a stretch of time; SDO is `none` where the spec does not give it
(U24). -/
structure PinLevels where
  sck : Bool
  sdo : Option Bool
deriving DecidableEq, Repr

/-- The pins during one `BusTransmit`: each bit stands on SDO while SCK is low and on through the rising
edge, and SCK is idle low afterwards (R67; log 12). -/
def byteWave (x : Byte) : List PinLevels :=
  ((byteBits x).flatMap fun b => [⟨false, some b⟩, ⟨true, some b⟩]) ++ [⟨false, none⟩]

/-- What a receiver that samples SDO at each rising edge of SCK sees (R67). -/
def risingSamples : List PinLevels → List (Option Bool)
  | p :: q :: rest => (if !p.sck && q.sck then [q.sdo] else []) ++ risingSamples (q :: rest)
  | [_] => []
  | [] => []

/-- SDO changes only while SCK is low (R67). -/
def sdoSteadyWhileHigh : List PinLevels → Bool
  | p :: q :: rest => (p.sdo == q.sdo || !q.sck) && sdoSteadyWhileHigh (q :: rest)
  | [_] => true
  | [] => true

/-! ## The far-end DAC chips (R205; log 11) -/

/-- One chip as the observer sees it: whether it is selected, the bytes sent since, and the value of
each sub-DAC. -/
structure Chip where
  selected : Bool
  sent     : List Byte
  regA     : BitVec 12
  regB     : BitVec 12
deriving DecidableEq, Repr

/-- The observer: both chips, and the number of free values drawn. -/
structure Observer where
  chips : Lines Chip
  draws : Nat
deriving DecidableEq, Repr

/-- `dac_reg[cs][sub]` (R205). -/
def Observer.dacReg (o : Observer) (c : ChipSel) (d : SubDac) : BitVec 12 :=
  match d with
  | .chA => (o.chips.get c).regA
  | .chB => (o.chips.get c).regB

/-- A chip that is selected. -/
def Chip.select (h : Chip) : Chip := { h with selected := true, sent := [] }

/-- A chip takes a byte while it is selected. -/
def Chip.shift (h : Chip) (x : Byte) : Chip :=
  if h.selected then { h with sent := h.sent ++ [x] } else h

/-- The frame `DF` is latched: `dac_reg[cs][DF[15]] <- DF[11:0]` (R205). -/
def Chip.latch (h : Chip) (df : BitVec 16) : Chip :=
  if df.getLsbD 15 then { h with regB := df.extractLsb' 0 12 }
  else { h with regA := df.extractLsb' 0 12 }

/-- A selected chip is de-selected: after exactly 16 bits it latches the frame, after any other number
both its values are draws (R205). -/
def Chip.deselect (h : Chip) (draws : Nat) : Chip :=
  if h.selected then
    match h.sent with
    | [hi, lo] => { h.latch (hi ++ lo) with selected := false, sent := [] }
    | _ => { selected := false, sent := [], regA := Config.dacReg draws, regB := Config.dacReg (draws + 1) }
  else h

/-- The observer reads one event. -/
def Observer.see (o : Observer) (e : Event) : Observer :=
  match e with
  | .csAssert c   => { o with chips := o.chips.set c (o.chips.get c).select }
  | .csDeassert c =>
    { chips := o.chips.set c ((o.chips.get c).deselect o.draws), draws := o.draws + 2 }
  | .xfer x       => { o with chips := ⟨o.chips.cs0.shift x, o.chips.cs1.shift x⟩ }
  | .claim _ _ _ | .release | .diag _ => o

/-- The observer reads a trace. -/
def Observer.watch (o : Observer) (t : List Event) : Observer := t.foldl Observer.see o

end Sys2Proof.Machine
end

