-- ==== Sys2Proof/Machine/Pseudo.lean ====
section
/-! DEFINITION. The host's assembler: pseudo-commands and the spelling of commands
(spec/30_encoding.md R100, R101). The block never sees either (R224). -/

namespace Sys2Proof.Machine

/-- The pseudo-commands (R101). -/
inductive Pseudo where
  | anRead (b : Bank) (ch : Nat)
  | anReadall (b : Bank)
  | anReadraw (b : Bank) (ch : Nat)
  | trRead (ch : Nat)
  | trReadall
  | trReadraw (ch : Nat)
deriving DecidableEq, Repr

/-- The exact expansion of a pseudo-command (R101). -/
def Pseudo.expand : Pseudo → List Instr
  | .anRead b ch    => [.anUpdate b ch]
  | .anReadall b    => [.anUpdate b 1, .anUpdate b 2, .anUpdate b 3, .anUpdate b 4]
  | .anReadraw b ch => [.anRaw b ch]
  | .trRead ch      => [.trRefresh ch]
  | .trReadall      => [.trRefresh 1, .trRefresh 2, .trRefresh 3, .trRefresh 4]
  | .trReadraw ch   => [.trRaw ch]

/-- `bank` is written `cv` or `knob` (R100). -/
def bankText : Bank → String
  | .cv   => "cv"
  | .knob => "knob"

def formA (m : String) (b : Bank) (ch : Nat) : String := m ++ " " ++ bankText b ++ ", " ++ toString ch

def formT (m : String) (ch : Nat) : String := m ++ " " ++ toString ch

def formV (m : String) (v : Int) : String := m ++ " " ++ toString v

/-- A command as the assembler spells it, with decimal operands (R100). -/
def asmText : Instr → String
  | .sysNop            => "sys.nop"
  | .sysCycle          => "sys.cycle"
  | .sysStatus         => "sys.status"
  | .anUpdate b ch     => formA "an.update" b ch
  | .anChanged b ch    => formA "an.changed" b ch
  | .anRaw b ch        => formA "an.raw" b ch
  | .anCur b ch        => formA "an.cur" b ch
  | .anLast b ch       => formA "an.last" b ch
  | .trRefresh ch      => formT "tr.refresh" ch
  | .trRose ch         => formT "tr.rose" ch
  | .trFell ch         => formT "tr.fell" ch
  | .trHigh ch         => formT "tr.high" ch
  | .trLow ch          => formT "tr.low" ch
  | .trRaw ch          => formT "tr.raw" ch
  | .scA2m v           => formV "sc.a2m" v
  | .scM2d v           => formV "sc.m2d" v
  | .scA2d v           => formV "sc.a2d" v
  | .dacWrite cs sub v => formT "dac.write" cs ++ ", " ++ toString sub ++ ", " ++ toString v
  | .outWrite o v      => formT "out.write" o ++ ", " ++ toString v

end Sys2Proof.Machine
end

