-- ==== Sys2Proof/Safety.lean ====
section
/-! DEFINITION. What a safe run is: the block is quiet between commands, its two chip-select lines are
never low together, every frame it sends is whole, and the host asks only fresh questions
(spec/44_dac.md R186, R192; spec/20_memory.md R71; spec/70_reset_and_hazards.md R280, R281). -/

namespace Sys2Proof.Machine

/-! ## The bus -/

/-- At most one chip-select line is low (R192). -/
def linesExclusive (l : Lines Bool) : Prop := l.cs0 = true ∨ l.cs1 = true

/-- The lines are high, the bus is free and no write is running: the block between two commands (R186). -/
def Quiet (s : State) : Prop := s.csN = ⟨true, true⟩ ∧ s.busOwned = false ∧ s.busy = false

/-- The lines after a trace that begins with both high (R67). -/
def lineLevels (t : List Event) : Lines Bool :=
  t.foldl (fun l e =>
    match e with
    | .csAssert c   => l.set c false
    | .csDeassert c => l.set c true
    | .claim _ _ _ | .xfer _ | .release | .diag _ => l) ⟨true, true⟩

/-- The two lines are never low together anywhere along the trace (R192). -/
def TraceExclusive (t : List Event) : Prop := ∀ p, p <+: t → linesExclusive (lineLevels p)

/-- Where a trace stands in the bracket of one DAC write (R190). -/
inductive BusPhase where
  | idle
  | selected (c : ChipSel)
  | claimed (c : ChipSel) (sent : Nat)
  | released (c : ChipSel)
deriving DecidableEq, Repr

/-- The event moves the bracket on, or does not belong there. A diagnostic stands between brackets. -/
def BusPhase.after (p : BusPhase) (e : Event) : Option BusPhase :=
  match p, e with
  | .idle, .csAssert c => some (.selected c)
  | .idle, .diag _ => some .idle
  | .selected c, .claim _ .msbFirst .cpol0Cpha0 => some (.claimed c 0)
  | .claimed c 0, .xfer _ => some (.claimed c 1)
  | .claimed c 1, .xfer _ => some (.claimed c 2)
  | .claimed c 2, .release => some (.released c)
  | .released c, .csDeassert d => if c = d then some .idle else none
  | _, _ => none

/-- Where the trace stands, if each of its events belongs where it is. -/
def phaseAfter (t : List Event) : Option BusPhase := t.foldlM BusPhase.after .idle

/-- The trace is a sequence of whole DAC writes and diagnostics (R71, R191, R200). -/
def WholeFrames (t : List Event) : Prop := phaseAfter t = some .idle

/-- What reset adds to a trace that stands here (R274). -/
def BusPhase.abandon : BusPhase → List Event
  | .idle => []
  | .selected c | .released c => [.csDeassert c]
  | .claimed c _ => [.release, .csDeassert c]

/-- A trace ended by reset: whole writes and diagnostics, and at most one write, the last, abandoned as
R274 says. -/
def EndedByReset (t : List Event) : Prop :=
  ∃ t₀ p, phaseAfter t₀ = some p ∧ t = t₀ ++ p.abandon

/-- What holds of the block between two inputs, in every run. -/
structure Inv (s : State) : Prop where
  quiet   : Quiet s
  cfgErr  : s.cfgErr = !routeOk s.cfg.route
  trace   : WholeFrames s.trace
  ended   : ∀ t ∈ s.endedTraces, EndedByReset t

/-- The command is one of the two that write to the DACs. -/
def writesDac : Instr → Bool
  | .dacWrite _ _ _ | .outWrite _ _ => true
  | .sysNop | .sysCycle | .sysStatus => false
  | .anUpdate _ _ | .anChanged _ _ | .anRaw _ _ | .anCur _ _ | .anLast _ _ => false
  | .trRefresh _ | .trRose _ | .trFell _ | .trHigh _ | .trLow _ | .trRaw _ => false
  | .scA2m _ | .scM2d _ | .scA2d _ => false

/-! ## The host's side -/

/-- Commands issued one after another. -/
def execAll : List Instr → State → Answer
  | [], s => .next s
  | i :: rest, s =>
    match exec i s with
    | .next t    => execAll rest t
    | .fault r   => .fault r
    | .refused r => .refused r

/-- A query of this analog channel now would be stale (R41). -/
def staleAnalog (b : Bank) (ch : Nat) (s : State) : Bool :=
  match chan? ch with
  | none   => false
  | some c => !(s.channel b c).fresh

/-- A query of this trigger channel now would be stale (R41). -/
def staleTrigger (ch : Nat) (s : State) : Bool :=
  match chan? ch with
  | none   => false
  | some c => !(s.trig c).fresh

/-- The command is a query and it would be answered stale (R41): what the host must not rely on
(R280, R281). -/
def staleQuery (i : Instr) (s : State) : Bool :=
  match i with
  | .anChanged b ch => staleAnalog b ch s
  | .trRose ch | .trFell ch | .trHigh ch | .trLow ch => staleTrigger ch s
  | .sysNop | .sysCycle | .sysStatus => false
  | .anUpdate _ _ | .anRaw _ _ | .anCur _ _ | .anLast _ _ => false
  | .trRefresh _ | .trRaw _ => false
  | .scA2m _ | .scM2d _ | .scA2d _ | .dacWrite _ _ _ | .outWrite _ _ => false

end Sys2Proof.Machine
end

