-- ==== Sys2Proof/Certificates/Slice0/Obligations.lean ====
section
/-! DEFINITION. What is claimed of the model, for the provers. The namespace Claims holds the words the
claims are made in, written from the spec's tables and not from the model's. Three forms stand in many
claims and are the model's, not the spec's: the host's inputs are the list `port` (log 1), `RSP` is the
word appended to `results` (log 5), and an answer of the environment is the head of a list of `env` where
one is settled and otherwise a free value (log 2). -/

namespace Sys2Proof.Claims

open Sys2Proof.Machine

/-! ## The encoding as spec/30_encoding.md gives it -/

/-- The `OP` column of the opcode map, with each row's format (R95). -/
def opcodes : List (BitVec 6 × Format) :=
  [(0x00, .N), (0x01, .N), (0x02, .N), (0x08, .A), (0x09, .A), (0x0A, .A), (0x0B, .A), (0x0C, .A),
    (0x10, .T), (0x11, .T), (0x12, .T), (0x13, .T), (0x14, .T), (0x15, .T), (0x18, .N), (0x19, .N),
    (0x1A, .N), (0x20, .D), (0x21, .T)]

/-- The reserved `OP` values, as R98 lists them. -/
def reservedOps : List (BitVec 6) :=
  [0x03, 0x04, 0x05, 0x06, 0x07, 0x0D, 0x0E, 0x0F, 0x16, 0x17, 0x1B, 0x1C, 0x1D, 0x1E, 0x1F]
    ++ (List.range 30).map fun n => BitVec.ofNat 6 (0x22 + n)

/-- The must-be-zero fields of a format, from the field masks of R92. -/
def mustBeZero : Format → Word
  | .N => 0x02000000#32 ||| 0x01C00000#32 ||| 0x00300000#32 ||| 0x000C0000#32 ||| 0x0003FFFF#32
  | .A => 0x00300000#32 ||| 0x000C0000#32 ||| 0x0003FFFF#32
  | .T => 0x02000000#32 ||| 0x00300000#32 ||| 0x000C0000#32 ||| 0x0003FFFF#32
  | .D => 0x02000000#32 ||| 0x01C00000#32 ||| 0x0003FFFF#32

/-- `OP` of a command word (R91). -/
def opOf (cw : Word) : BitVec 6 := cw.extractLsb' 26 6

/-- "its `OP` is reserved, or a must-be-zero field of its format (R92) is nonzero" (R97). -/
def IllegalWord (cw : Word) : Prop :=
  (∀ p ∈ opcodes, p.1 ≠ opOf cw) ∨ ∃ p ∈ opcodes, p.1 = opOf cw ∧ cw &&& mustBeZero p.2 ≠ 0#32

/-- Mask and match of every row (R92, R95). -/
def maskAndMatch : List (Word × Word) :=
  [(0xFFFFFFFF#32, 0x00000000#32), (0xFFFFFFFF#32, 0x04000000#32), (0xFFFFFFFF#32, 0x08000000#32),
    (0xFC3FFFFF#32, 0x20000000#32), (0xFC3FFFFF#32, 0x24000000#32), (0xFC3FFFFF#32, 0x28000000#32),
    (0xFC3FFFFF#32, 0x2C000000#32), (0xFC3FFFFF#32, 0x30000000#32), (0xFE3FFFFF#32, 0x40000000#32),
    (0xFE3FFFFF#32, 0x44000000#32), (0xFE3FFFFF#32, 0x48000000#32), (0xFE3FFFFF#32, 0x4C000000#32),
    (0xFE3FFFFF#32, 0x50000000#32), (0xFE3FFFFF#32, 0x54000000#32), (0xFFFFFFFF#32, 0x60000000#32),
    (0xFFFFFFFF#32, 0x64000000#32), (0xFFFFFFFF#32, 0x68000000#32), (0xFFC3FFFF#32, 0x80000000#32),
    (0xFE3FFFFF#32, 0x84000000#32)]

/-- The rows a word matches (R95). -/
def rowsMatching (cw : Word) : List (Word × Word) :=
  maskAndMatch.filter fun r => cw &&& r.1 == r.2

/-- `base | B<<25 | CH<<22` (format A). -/
def wordA (base : Word) (b : Bank) (ch : Nat) : Word :=
  base ||| (if b = .knob then 1#32 else 0#32) <<< 25 ||| BitVec.ofNat 32 ch <<< 22

/-- `base | CH<<22` (format T). -/
def wordT (base : Word) (ch : Nat) : Word := base ||| BitVec.ofNat 32 ch <<< 22

/-- `base | CS<<20 | SUB<<18` (format D). -/
def wordD (base : Word) (cs sub : Nat) : Word :=
  base ||| BitVec.ofNat 32 cs <<< 20 ||| BitVec.ofNat 32 sub <<< 18

/-! ## Results -/

/-- A signed result as the result port carries it (R94). -/
def rsp (v : Int) : Word := BitVec.ofInt 32 v

/-- A Boolean result (R94). -/
def rspBool (p : Bool) : Word := if p then 1#32 else 0#32

/-- A sample as a result: `zext_32`. -/
def rspSample (x : Sample) : Word := BitVec.ofNat 32 x.toNat

/-- The last result returned, as a signed number. -/
def lastResult (s : State) : Int := (s.results.getLastD 0#32).toInt

/-- The diagnostic a rejected command emits: one event if `DIAG_EMIT`, else none (R245). -/
def diags (s : State) (d : Diag) : List Event := if s.cfg.diagEmit = true then [.diag d] else []

/-- The command is rejected with this code: an optional diagnostic, the code, and nothing else changed. -/
def Rejected (i : Instr) (s : State) (d : Diag) (code : Int) : Prop :=
  exec i s = .next { s with trace := s.trace ++ diags s d, results := s.results ++ [rsp code] }

/-- The command answers `r` and changes nothing else. -/
def Answers (i : Instr) (s : State) (r : Word) : Prop :=
  exec i s = .next { s with results := s.results ++ [r] }

/-- The environment after one `ReadRaw`: no other list of answers is touched (log 2). -/
def tookRaw (e : Env) : Env := { e with raw := e.raw.tail, draws := e.draws + 1 }

/-- The environment after one `ReadPin`. -/
def tookPin (e : Env) : Env := { e with pin := e.pin.tail, draws := e.draws + 1 }

/-- The environment after one drawn answer of a stale query. -/
def tookStale (e : Env) : Env := { e with stale := e.stale.tail, draws := e.draws + 1 }

/-- The environment after `ReadRaw` and then `SmoothUpdate`. -/
def tookSample (e : Env) : Env :=
  { e with raw := e.raw.tail, smooth := e.smooth.tail, draws := e.draws + 2 }

/-- The environment after `NowMs` and then `DebounceRefresh`. -/
def tookRefresh (e : Env) : Env :=
  { e with clock := e.clock.tail, debounce := e.debounce.tail, draws := e.draws + 2 }

/-- The command answers `r`, leaves the environment as `e`, and changes nothing else. -/
def AnswersFromEnv (i : Instr) (s : State) (e : Env) (r : Word) : Prop :=
  exec i s = .next { s with env := e, results := s.results ++ [r] }

/-- The Boolean query of a latch: the latch when fresh, and by `STALE_POLICY` when stale, where a drawn
answer may be either Boolean and nothing else is asked of the environment (R41). -/
def AnswersQuery (i : Instr) (s : State) (fresh latch : Bool) : Prop :=
  (fresh = true → Answers i s (rspBool latch)) ∧
  (fresh = false → s.cfg.stalePolicy = .latch → Answers i s (rspBool latch)) ∧
  (fresh = false → s.cfg.stalePolicy = .draw →
    (∃ a, AnswersFromEnv i s (tookStale s.env) (rspBool a)) ∧
    ∀ a rest, s.env.stale = a :: rest → AnswersFromEnv i s (tookStale s.env) (rspBool a))

/-- The five commands on analog channel id `ch` of bank `b`. -/
def analogCommands (b : Bank) (ch : Nat) : List Instr :=
  [.anUpdate b ch, .anChanged b ch, .anRaw b ch, .anCur b ch, .anLast b ch]

/-- The six commands on trigger channel id `ch`. -/
def triggerCommands (ch : Nat) : List Instr :=
  [.trRefresh ch, .trRose ch, .trFell ch, .trHigh ch, .trLow ch, .trRaw ch]

/-- The `OP` of a command on a channel, as its diagnostic names it (R120 to R125, R140 to R145). -/
def opNumber : Instr → BitVec 6
  | .anUpdate _ _ => 0x08#6
  | .anChanged _ _ => 0x09#6
  | .anRaw _ _ => 0x0A#6
  | .anCur _ _ => 0x0B#6
  | .anLast _ _ => 0x0C#6
  | .trRefresh _ => 0x10#6
  | .trRose _ => 0x11#6
  | .trFell _ => 0x12#6
  | .trHigh _ => 0x13#6
  | .trLow _ => 0x14#6
  | .trRaw _ => 0x15#6
  | .dacWrite _ _ _ => 0x20#6
  | .outWrite _ _ => 0x21#6
  | .sysNop => 0x00#6
  | .sysCycle => 0x01#6
  | .sysStatus => 0x02#6
  | .scA2m _ => 0x18#6
  | .scM2d _ => 0x19#6
  | .scA2d _ => 0x1A#6

/-- The bank that `b` is not. -/
def otherBank : Bank → Bank
  | .cv => .knob
  | .knob => .cv

/-- The state with the two banks of analog channels exchanged. -/
def swapBanks (s : State) : State := { s with analog := ⟨s.analog.knob, s.analog.cv⟩ }

/-- Everything of the block but its channels is as it was: lines, bus, guard, configuration, traces,
inputs. -/
def SameButChannels (s t : State) : Prop :=
  t.cfg = s.cfg ∧ t.csN = s.csN ∧ t.busOwned = s.busOwned ∧ t.busy = s.busy ∧ t.cfgErr = s.cfgErr ∧
  t.trace = s.trace ∧ t.endedTraces = s.endedTraces ∧ t.port = s.port

/-- The six events of a whole DAC write of these two bytes (R200). -/
def sixEvents (hz : Nat) (c : ChipSel) (hi lo : Byte) : List Event :=
  [.csAssert c, .claim hz .msbFirst .cpol0Cpha0, .xfer hi, .xfer lo, .release, .csDeassert c]

/-- `clamp(v, lo, hi)` (R11). -/
def clampTo (v lo hi : Int) : Int := min (max v lo) hi

/-- The high byte of a frame (R185). -/
def hiByte (ctrl3 : BitVec 3) (d : SubDac) (v : Int) : Byte :=
  BitVec.ofNat 8 (d.index * 128 + ctrl3.toNat * 16 + (clampTo v 0 4095).toNat / 256)

/-- The low byte of a frame (R185). -/
def loByte (v : Int) : Byte := BitVec.ofNat 8 ((clampTo v 0 4095).toNat % 256)

/-- The six events of `DacWrite(cs, sub, v)` under the parameters of `s`. -/
def writeEvents (s : State) (c : ChipSel) (d : SubDac) (v : Int) : List Event :=
  sixEvents s.cfg.dacSckHz c (hiByte s.cfg.dacCtrl3 d v) (loByte v)

/-- The error of a command that has one, by the table of R241 (its -3 row is a word, not a command). -/
def errorOf (i : Instr) (s : State) : Option Int :=
  let badId (ch : Nat) : Option Int := if 1 ≤ ch ∧ ch ≤ 4 then none else some (-1)
  match i with
  | .anUpdate _ ch | .anRaw _ ch | .anCur _ ch | .anLast _ ch => badId ch
  | .trRefresh ch | .trRaw ch => badId ch
  | .outWrite o _ => if 1 ≤ o ∧ o ≤ 4 then (if s.cfgErr then some (-2) else none) else some (-1)
  | .dacWrite cs sub _ => if cs ≤ 1 ∧ sub ≤ 1 then none else some (-2)
  | .anChanged _ _ | .trRose _ | .trFell _ | .trHigh _ | .trLow _ => none
  | .scA2m _ | .scM2d _ | .scA2d _ => none
  | .sysNop | .sysCycle | .sysStatus => none

/-- `r` is the state after reset number `n`: the first one, or a later one from any state whatever. -/
def IsReset (r : State) (n : Nat) : Prop :=
  (r = State.reset ∧ n = 0) ∨ ∃ s, r = rst s ∧ n = s.env.draws

/-- The next input is a reset, between commands or within one. -/
def ResetNext (s : State) : Prop :=
  (∃ rest, s.port = .reset :: rest) ∨ ∃ cw arg k rest, s.port = .resetDuring cw arg k :: rest

/-- From `s` to `t` nothing changed but the result `r` and an optional diagnostic. -/
def OnlyCode (s t : State) (r : Word) : Prop :=
  ∃ events, (events = [] ∨ ∃ d, s.cfg.diagEmit = true ∧ events = [.diag d]) ∧
    t = { s with trace := s.trace ++ events, results := s.results ++ [r] }

/-- The commands with a Boolean result that take a channel id (R241). -/
def booleanQueries (b : Bank) (ch : Nat) : List Instr :=
  [.anChanged b ch, .trRose ch, .trFell ch, .trHigh ch, .trLow ch]

/-- The event is a diagnostic. -/
def isDiag : Event → Bool
  | .diag _ => true
  | .csAssert _ | .csDeassert _ | .claim _ _ _ | .xfer _ | .release => false

/-- The state with `DIAG_EMIT` false. -/
def withoutDiags (s : State) : State := { s with cfg := { s.cfg with diagEmit := false } }

/-- The greatest result of a command that has no error (R241); the least is 0. -/
def maxResult : Instr → Int
  | .anUpdate _ _ | .anRaw _ _ | .anCur _ _ | .anLast _ _ => 1023
  | .anChanged _ _ | .trRose _ | .trFell _ | .trHigh _ | .trLow _ | .trRaw _ => 1
  | .scA2m _ => 127
  | .scM2d _ | .scA2d _ => 4095
  | .sysStatus => 15
  | .sysNop | .sysCycle | .trRefresh _ | .dacWrite _ _ _ | .outWrite _ _ => 0

end Sys2Proof.Claims

open Sys2Proof Sys2Proof.Machine Sys2Proof.Claims

/-! ## Encoding -/

/-- Words written out from spec/95_test_vectors.md section 2.1 decode to the commands they stand for. -/
def Obligations.SampleWordsDecode : Prop :=
  decode 0x00000000#32 0#32 = .ok .sysNop ∧
  decode 0x22C00000#32 0#32 = .ok (.anUpdate .knob 3) ∧
  decode 0x23C00000#32 0#32 = .ok (.anUpdate .knob 7) ∧
  decode 0x44800000#32 0#32 = .ok (.trRose 2) ∧
  decode 0x68000000#32 0xFFFFFFFB#32 = .ok (.scA2d (-5)) ∧
  decode 0x80140000#32 5000#32 = .ok (.dacWrite 1 1 5000) ∧
  decode 0x85000000#32 5000#32 = .ok (.outWrite 4 5000) ∧
  decode 0x0C000000#32 0#32 = .error (.reservedOp 0x03#6) ∧
  decode 0x20500000#32 0#32 = .error (.mustBeZero 0x20500000#32)

/-- Decoding the encoding of any well-formed command gives it back, with every operand (R91, R93, R95). -/
def Obligations.DecodeOfEncodeIsIdentity : Prop :=
  ∀ i : Instr, i.wellFormed = true → decode (encode i).1 (encode i).2 = .ok i

/-- A decoded command is well formed, and encodes to the words it was read from: `CW` always, `ARG` where
the command uses it; where it does not, every `ARG` decodes alike (R90, R93, R95). -/
def Obligations.EncodeOfDecodeIsIdentity : Prop :=
  ∀ (cw arg : Word) (i : Instr), decode cw arg = .ok i →
    i.wellFormed = true ∧ (encode i).1 = cw ∧
    (i.usesArg = true → (encode i).2 = arg) ∧
    (i.usesArg = false → ∀ arg', decode cw arg' = .ok i)

/-- R99: every word is exactly one command of R95 or illegal under R97. -/
def Obligations.EveryWordIsOneCommandOrIllegal : Prop :=
  ∀ cw arg : Word,
    (¬ IllegalWord cw ∧ (∃ i, decode cw arg = .ok i) ∧ ∃ r, rowsMatching cw = [r]) ∨
    (IllegalWord cw ∧ (∃ e, decode cw arg = .error e) ∧ rowsMatching cw = [])

/-- R97, R98: an illegal command changes no state, returns -3, and emits `Diag(ILLEGAL, CW)` when
`DIAG_EMIT` is true; every reserved `OP` is illegal. -/
def Obligations.IllegalWordIsRejected : Prop :=
  (∀ (s : State) (cw arg : Word) (rest : List PortInput),
    s.port = .command cw arg :: rest → IllegalWord cw →
    step s = .next { s with
      port := rest, trace := s.trace ++ diags s (.illegal cw), results := s.results ++ [rsp (-3)] }) ∧
  (∀ cw : Word, opOf cw ∈ reservedOps → IllegalWord cw) ∧
  (∀ op : BitVec 6, op ∈ reservedOps ↔ ∀ p ∈ opcodes, p.1 ≠ op)

/-! ## The step -/

/-- A step runs the decoded command at the head of the command port, with the port moved on; with no
input it waits; with `rst` it resets; and a word put by withFetchWord is the next command run. The port
as part of the state, and the waiting, are the model's choice (log 1). -/
def Obligations.StepTakesNextInput : Prop :=
  (∀ (s : State) (cw arg : Word) (rest : List PortInput) (i : Instr),
    s.port = .command cw arg :: rest → decode cw arg = .ok i →
    step s = exec i { s with port := rest }) ∧
  (∀ s : State, s.port = [] → step s = .next s) ∧
  (∀ (s : State) (rest : List PortInput), s.port = .reset :: rest →
    step s = .next (rst { s with port := rest })) ∧
  (∀ (s : State) (nbits w : Nat) (i : Instr), decodeTableWord nbits w = some i →
    step (s.withFetchWord nbits w) = exec i s)

/-- R240: no step faults or is refused, whatever the state and the input; and every command, unless it
waits for the guard, returns exactly one result. -/
def Obligations.NothingTraps : Prop :=
  (∀ s : State, ∃ t, step s = .next t) ∧
  (∀ (i : Instr) (s : State), s.busy = false →
    ∃ t r, exec i s = .next t ∧ t.results = s.results ++ [r])

/-! ## Analog channels -/

/-- R120: `an.update`, its encoding, its invalid ids and all it does on a valid channel. -/
def Obligations.AnUpdateShiftsHistory : Prop :=
  (∀ (b : Bank) (ch : Nat) (arg : Word), ch ≤ 7 →
    decode (wordA 0x20000000#32 b ch) arg = .ok (.anUpdate b ch)) ∧
  (∀ (b : Bank) (ch : Nat) (s : State), ¬ (1 ≤ ch ∧ ch ≤ 4) →
    Rejected (.anUpdate b ch) s (.invalidId 0x08#6 ch) (-1)) ∧
  (∀ (b : Bank) (c : Chan) (s : State), ∃ (raw val : Sample) (chg : Bool),
    exec (.anUpdate b c.id) s = .next { s with
      analog := s.analog.set b c
        { current := val, last := (s.channel b c).current, chg := chg,
          smooth := { (s.channel b c).smooth with fed := (s.channel b c).smooth.fed ++ [raw] },
          fresh := true }
      env := tookSample s.env
      results := s.results ++ [rspSample val] } ∧
    (∀ x rest, s.env.raw = x :: rest → raw = x) ∧
    (∀ x p rest, s.env.smooth = (x, p) :: rest → val = x ∧ chg = p))

/-- R121: `an.changed` reports the latch of the most recent update, and by `STALE_POLICY` when stale. -/
def Obligations.AnChangedReportsLatch : Prop :=
  (∀ (b : Bank) (ch : Nat) (arg : Word), ch ≤ 7 →
    decode (wordA 0x24000000#32 b ch) arg = .ok (.anChanged b ch)) ∧
  (∀ (b : Bank) (ch : Nat) (s : State), ¬ (1 ≤ ch ∧ ch ≤ 4) →
    Rejected (.anChanged b ch) s (.invalidId 0x09#6 ch) 0) ∧
  (∀ (b : Bank) (c : Chan) (s : State),
    AnswersQuery (.anChanged b c.id) s (s.channel b c).fresh (s.channel b c).chg)

/-- R122, R124, R125: `an.raw`, `an.cur` and `an.last` answer and change nothing. -/
def Obligations.AnalogReadsChangeNothing : Prop :=
  (∀ (b : Bank) (ch : Nat) (arg : Word), ch ≤ 7 →
    decode (wordA 0x28000000#32 b ch) arg = .ok (.anRaw b ch) ∧
    decode (wordA 0x2C000000#32 b ch) arg = .ok (.anCur b ch) ∧
    decode (wordA 0x30000000#32 b ch) arg = .ok (.anLast b ch)) ∧
  (∀ (b : Bank) (ch : Nat) (s : State), ¬ (1 ≤ ch ∧ ch ≤ 4) →
    Rejected (.anRaw b ch) s (.invalidId 0x0A#6 ch) (-1) ∧
    Rejected (.anCur b ch) s (.invalidId 0x0B#6 ch) (-1) ∧
    Rejected (.anLast b ch) s (.invalidId 0x0C#6 ch) (-1)) ∧
  (∀ (b : Bank) (c : Chan) (s : State),
    (∃ x, AnswersFromEnv (.anRaw b c.id) s (tookRaw s.env) (rspSample x)) ∧
    (∀ x rest, s.env.raw = x :: rest →
      AnswersFromEnv (.anRaw b c.id) s (tookRaw s.env) (rspSample x)) ∧
    Answers (.anCur b c.id) s (rspSample (s.channel b c).current) ∧
    Answers (.anLast b c.id) s (rspSample (s.channel b c).last))

/-- R126: an analog command with an invalid id reads no collaborator, writes nothing, and returns its
sentinel with an optional diagnostic. -/
def Obligations.InvalidAnalogIdIsNoOp : Prop :=
  ∀ (b : Bank) (ch : Nat) (s : State), ¬ (1 ≤ ch ∧ ch ≤ 4) → ∀ i ∈ analogCommands b ch,
    Rejected i s (.invalidId (opNumber i) ch) (if i = .anChanged b ch then 0 else -1)

/-- R127: a command on one analog channel reads and writes only that channel's state. Two states that
agree on it, on the parameters and on the environment get the same answer and the same new channel. -/
def Obligations.AnalogCommandsAreChannelLocal : Prop :=
  ∀ (b : Bank) (c : Chan) (i : Instr) (s : State), i ∈ analogCommands b c.id →
    ∃ t r, exec i s = .next t ∧ t.results = s.results ++ [r] ∧
      (∀ b' c', (b', c') ≠ (b, c) → t.channel b' c' = s.channel b' c') ∧
      t.trigger = s.trigger ∧ SameButChannels s t ∧
      ∀ s', s'.channel b c = s.channel b c → s'.cfg = s.cfg → s'.env = s.env →
        ∃ t', exec i s' = .next t' ∧ t'.results = s'.results ++ [r] ∧
          t'.channel b c = t.channel b c

/-- R128: the two banks have identical rules. Exchanging them in the command and in the state exchanges them
in the next state, where the environment's answers are settled (an unsettled answer may differ by bank). -/
def Obligations.BanksBehaveAlike : Prop :=
  ∀ (b : Bank) (ch : Nat) (s t : State), s.env.raw ≠ [] → s.env.smooth ≠ [] →
    ∀ p ∈ (analogCommands b ch).zip (analogCommands (otherBank b) ch),
      exec p.1 s = .next t → exec p.2 (swapBanks s) = .next (swapBanks t)

/-- R123: two updates of a channel that report the same value leave it in both registers, whatever other
commands come between. The reported value is the update's own result. -/
def Obligations.RepeatedUpdateFillsBothRegisters : Prop :=
  ∀ (b : Bank) (c : Chan) (v : Sample) (between : List Instr) (s s₁ s₂ s₃ : State),
    exec (.anUpdate b c.id) s = .next s₁ → s₁.results = s.results ++ [rspSample v] →
    (∀ i ∈ between, i ≠ .anUpdate b c.id) → execAll between s₁ = .next s₂ →
    exec (.anUpdate b c.id) s₂ = .next s₃ → s₃.results = s₂.results ++ [rspSample v] →
    (s₃.channel b c).current = v ∧ (s₃.channel b c).last = v

/-- R22: no command but a valid `an.update` of the channel writes its registers, its latch or its
collaborator. -/
def Obligations.OnlyUpdateWritesAnalogRegisters : Prop :=
  ∀ (i : Instr) (s t : State), exec i s = .next t → ∀ (b : Bank) (c : Chan), i ≠ .anUpdate b c.id →
    (t.channel b c).current = (s.channel b c).current ∧
    (t.channel b c).last = (s.channel b c).last ∧
    (t.channel b c).chg = (s.channel b c).chg ∧
    (t.channel b c).smooth = (s.channel b c).smooth

/-! ## Trigger channels -/

/-- R140: `tr.refresh`, its encoding, its invalid ids and all it does on a valid channel; the time reaches
the collaborator unchanged. -/
def Obligations.TrRefreshLatchesReport : Prop :=
  (∀ (ch : Nat) (arg : Word), ch ≤ 7 →
    decode (wordT 0x40000000#32 ch) arg = .ok (.trRefresh ch)) ∧
  (∀ (ch : Nat) (s : State), ¬ (1 ≤ ch ∧ ch ≤ 4) →
    Rejected (.trRefresh ch) s (.invalidId 0x10#6 ch) (-1)) ∧
  (∀ (c : Chan) (s : State), ∃ (time : Word) (r : DebounceReport),
    exec (.trRefresh c.id) s = .next { s with
      trigger := s.trigger.set c
        { riseE := r.rise, fallE := r.fall, lvlE := r.level,
          deb := { (s.trig c).deb with fed := (s.trig c).deb.fed ++ [time] }, fresh := true }
      env := tookRefresh s.env
      results := s.results ++ [0#32] } ∧
    (∀ x rest, s.env.clock = x :: rest → time = x) ∧
    (∀ x rest, s.env.debounce = x :: rest → r = x))

/-- R141 to R144: the four queries present logical polarity and change nothing but the environment's
draw of a stale answer. -/
def Obligations.TriggerQueriesInvertPolarity : Prop :=
  (∀ (ch : Nat) (arg : Word), ch ≤ 7 →
    decode (wordT 0x44000000#32 ch) arg = .ok (.trRose ch) ∧
    decode (wordT 0x48000000#32 ch) arg = .ok (.trFell ch) ∧
    decode (wordT 0x4C000000#32 ch) arg = .ok (.trHigh ch) ∧
    decode (wordT 0x50000000#32 ch) arg = .ok (.trLow ch)) ∧
  (∀ (ch : Nat) (s : State), ¬ (1 ≤ ch ∧ ch ≤ 4) →
    Rejected (.trRose ch) s (.invalidId 0x11#6 ch) 0 ∧
    Rejected (.trFell ch) s (.invalidId 0x12#6 ch) 0 ∧
    Rejected (.trHigh ch) s (.invalidId 0x13#6 ch) 0 ∧
    Rejected (.trLow ch) s (.invalidId 0x14#6 ch) 0) ∧
  (∀ (c : Chan) (s : State),
    AnswersQuery (.trRose c.id) s (s.trig c).fresh (s.trig c).fallE ∧
    AnswersQuery (.trFell c.id) s (s.trig c).fresh (s.trig c).riseE ∧
    AnswersQuery (.trHigh c.id) s (s.trig c).fresh (!(s.trig c).lvlE) ∧
    AnswersQuery (.trLow c.id) s (s.trig c).fresh (s.trig c).lvlE)

/-- R145: `tr.raw` answers the electrical level of the pin and changes nothing. -/
def Obligations.TrRawReturnsPinLevel : Prop :=
  (∀ (ch : Nat) (arg : Word), ch ≤ 7 → decode (wordT 0x54000000#32 ch) arg = .ok (.trRaw ch)) ∧
  (∀ (ch : Nat) (s : State), ¬ (1 ≤ ch ∧ ch ≤ 4) →
    Rejected (.trRaw ch) s (.invalidId 0x15#6 ch) (-1)) ∧
  (∀ (c : Chan) (s : State),
    (∃ p, AnswersFromEnv (.trRaw c.id) s (tookPin s.env) (rspBool p)) ∧
    ∀ p rest, s.env.pin = p :: rest → AnswersFromEnv (.trRaw c.id) s (tookPin s.env) (rspBool p))

/-- R147: a trigger command with an invalid id calls no collaborator, writes nothing, and returns its
sentinel with an optional diagnostic. -/
def Obligations.InvalidTriggerIdIsNoOp : Prop :=
  ∀ (ch : Nat) (s : State), ¬ (1 ≤ ch ∧ ch ≤ 4) → ∀ i ∈ triggerCommands ch,
    Rejected i s (.invalidId (opNumber i) ch)
      (if i = .trRefresh ch ∨ i = .trRaw ch then -1 else 0)

/-- R148: on a fresh channel the two levels are complementary, and each edge query returns what the
collaborator reported as the other edge; any two stale queries, of any channels, are independent draws. -/
def Obligations.LevelsComplementaryAndEdgesSwapped : Prop :=
  (∀ (c : Chan) (s : State), (s.trig c).fresh = true →
    ∃ p, Answers (.trHigh c.id) s (rspBool p) ∧ Answers (.trLow c.id) s (rspBool (!p))) ∧
  (∀ (c : Chan) (s t : State) (r : DebounceReport) (rest : List DebounceReport),
    s.env.debounce = r :: rest → exec (.trRefresh c.id) s = .next t →
    Answers (.trRose c.id) t (rspBool r.fall) ∧ Answers (.trFell c.id) t (rspBool r.rise)) ∧
  (∀ (i j : Instr) (s : State) (p q : Bool) (rest : List Bool),
    staleQuery i s = true → staleQuery j s = true → s.cfg.stalePolicy = .draw →
    s.env.stale = p :: q :: rest →
    ∃ t, execAll [i, j] s = .next t ∧ t.results = s.results ++ [rspBool p, rspBool q])

/-- R149: a command on one trigger channel reads and writes only that channel's state. -/
def Obligations.TriggerCommandsAreChannelLocal : Prop :=
  ∀ (c : Chan) (i : Instr) (s : State), i ∈ triggerCommands c.id →
    ∃ t r, exec i s = .next t ∧ t.results = s.results ++ [r] ∧
      (∀ c', c' ≠ c → t.trig c' = s.trig c') ∧
      t.analog = s.analog ∧ SameButChannels s t ∧
      ∀ s', s'.trig c = s.trig c → s'.cfg = s.cfg → s'.env = s.env →
        ∃ t', exec i s' = .next t' ∧ t'.results = s'.results ++ [r] ∧ t'.trig c = t.trig c

/-- R146: only `tr.refresh` refreshes a debounce collaborator or writes a trigger latch; no query does. -/
def Obligations.OnlyRefreshWritesTriggerLatches : Prop :=
  ∀ (i : Instr) (s t : State), exec i s = .next t → ∀ c : Chan, i ≠ .trRefresh c.id →
    (t.trig c).riseE = (s.trig c).riseE ∧ (t.trig c).fallE = (s.trig c).fallE ∧
    (t.trig c).lvlE = (s.trig c).lvlE ∧ (t.trig c).deb = (s.trig c).deb

/-! ## Staleness -/

/-- R40: after a valid update or refresh a query of that channel is fresh until the next `sys.cycle`,
whatever commands come between. -/
def Obligations.FreshUntilNextCycle : Prop :=
  (∀ (b : Bank) (c : Chan) (later : List Instr) (s t u : State),
    exec (.anUpdate b c.id) s = .next t → .sysCycle ∉ later → execAll later t = .next u →
    staleQuery (.anChanged b c.id) u = false) ∧
  (∀ (c : Chan) (later : List Instr) (s t u : State),
    exec (.trRefresh c.id) s = .next t → .sysCycle ∉ later → execAll later t = .next u →
    ∀ i ∈ [Instr.trRose c.id, .trFell c.id, .trHigh c.id, .trLow c.id], staleQuery i u = false)

/-- R41: a stale query under `STALE_POLICY = draw` admits both answers, and under `latch` has one answer
that no draw changes. -/
def Obligations.StaleQueryAdmitsBothAnswers : Prop :=
  ∀ (i : Instr) (s : State), staleQuery i s = true →
    (s.cfg.stalePolicy = .draw → ∀ p : Bool,
      AnswersFromEnv i { s with env := { s.env with stale := p :: s.env.stale } }
        { s.env with draws := s.env.draws + 1 } (rspBool p)) ∧
    (s.cfg.stalePolicy = .latch → ∃ p : Bool, ∀ e : Env, Answers i { s with env := e } (rspBool p))

/-! ## Scale conversion -/

/-- R160 to R162: the three maps, their encodings, the identities and step sizes of their corner cases;
nothing but the result changes. -/
def Obligations.ScaleCommandsComputeTheirMaps : Prop :=
  (∀ arg : Word,
    decode 0x60000000#32 arg = .ok (.scA2m arg.toInt) ∧
    decode 0x64000000#32 arg = .ok (.scM2d arg.toInt) ∧
    decode 0x68000000#32 arg = .ok (.scA2d arg.toInt)) ∧
  (∀ (v : Int) (s : State),
    Answers (.scA2m v) s (rsp (clampTo v 0 1023 / 8)) ∧
    Answers (.scM2d v) s (rsp (clampTo v 0 127 * 4095 / 127)) ∧
    Answers (.scA2d v) s (rsp (clampTo v 0 1023 * 4095 / 1023)) ∧
    Answers (.scM2d v) s (rsp (32 * clampTo v 0 127 + 31 * clampTo v 0 127 / 127)) ∧
    Answers (.scA2d v) s (rsp (4 * clampTo v 0 1023 + 3 * clampTo v 0 1023 / 1023))) ∧
  (∀ (v : Int) (s t u : State), 0 ≤ v → v < 127 →
    exec (.scM2d v) s = .next t → exec (.scM2d (v + 1)) s = .next u →
    lastResult u = lastResult t + 32 ∨ lastResult u = lastResult t + 33) ∧
  (∀ (v : Int) (s t u : State), 0 ≤ v → v < 1023 →
    exec (.scA2d v) s = .next t → exec (.scA2d (v + 1)) s = .next u →
    lastResult u = lastResult t + 4 ∨ lastResult u = lastResult t + 5)

/-- R165: clamping is the only out-of-domain behaviour, so every result lies in its output domain. -/
def Obligations.ScaleResultsStayInDomain : Prop :=
  ∀ (v : Int) (s : State), ∃ a m d,
    exec (.scA2m v) s = .next a ∧ 0 ≤ lastResult a ∧ lastResult a ≤ 127 ∧
    exec (.scA2m (clampTo v 0 1023)) s = .next a ∧
    exec (.scM2d v) s = .next m ∧ 0 ≤ lastResult m ∧ lastResult m ≤ 4095 ∧
    exec (.scM2d (clampTo v 0 127)) s = .next m ∧
    exec (.scA2d v) s = .next d ∧ 0 ≤ lastResult d ∧ lastResult d ≤ 4095 ∧
    exec (.scA2d (clampTo v 0 1023)) s = .next d

/-- R166: the three maps are monotonic over the whole input range, with exact endpoints. -/
def Obligations.ScaleMapsAreMonotonic : Prop :=
  (∀ (v w : Int) (s a a' m m' d d' : State), v ≤ w →
    exec (.scA2m v) s = .next a → exec (.scA2m w) s = .next a' →
    exec (.scM2d v) s = .next m → exec (.scM2d w) s = .next m' →
    exec (.scA2d v) s = .next d → exec (.scA2d w) s = .next d' →
    lastResult a ≤ lastResult a' ∧ lastResult m ≤ lastResult m' ∧ lastResult d ≤ lastResult d') ∧
  (∀ s : State,
    Answers (.scA2m 0) s (rsp 0) ∧ Answers (.scA2m 1023) s (rsp 127) ∧
    Answers (.scM2d 0) s (rsp 0) ∧ Answers (.scM2d 127) s (rsp 4095) ∧
    Answers (.scA2d 0) s (rsp 0) ∧ Answers (.scA2d 1023) s (rsp 4095))

/-- R167: going through MIDI is lossy: over [0,1023] the two paths differ by at most 29, reached only at
1016, and the examples of the rule. -/
def Obligations.MidiDetourIsLossy : Prop :=
  (∀ (v : Int) (s a m d : State), 0 ≤ v → v ≤ 1023 →
    exec (.scA2m v) s = .next a → exec (.scM2d (lastResult a)) a = .next m →
    exec (.scA2d v) m = .next d →
    lastResult m - lastResult d ≤ 29 ∧ lastResult d - lastResult m ≤ 29 ∧
    (lastResult m - lastResult d = 29 ↔ v = 1016)) ∧
  (∀ s : State,
    Answers (.scA2d 512) s (rsp 2049) ∧ Answers (.scM2d 64) s (rsp 2063) ∧
    Answers (.scA2m 512) s (rsp 64) ∧ Answers (.scA2d 1016) s (rsp 4066) ∧
    Answers (.scA2m 1016) s (rsp 127) ∧ Answers (.scM2d 127) s (rsp 4095))

/-! ## DAC writes -/

/-- R183 to R185: the fields of the frame for every sub-DAC, control bits and value, the clamp, and the two
bytes; with the control bits of the default configuration the high byte is 0x3x or 0xBx. -/
def Obligations.DacFrameHasItsFields : Prop :=
  (∀ (ctrl3 : BitVec 3) (d : SubDac) (v : Int),
    (dacFrame ctrl3 d v).extractLsb' 15 1 = BitVec.ofNat 1 d.index ∧
    (dacFrame ctrl3 d v).extractLsb' 12 3 = ctrl3 ∧
    (((dacFrame ctrl3 d v).extractLsb' 0 12).toNat : Int) = clampTo v 0 4095 ∧
    frameHi (dacFrame ctrl3 d v) = hiByte ctrl3 d v ∧ frameLo (dacFrame ctrl3 d v) = loByte v ∧
    dacFrame ctrl3 d v = frameHi (dacFrame ctrl3 d v) ++ frameLo (dacFrame ctrl3 d v)) ∧
  Config.params.dacCtrl3 = 0b011#3 ∧
  (∀ v : Int,
    (hiByte 0b011#3 .chA v).toNat = 0x30 + (clampTo v 0 4095).toNat / 256 ∧
    (hiByte 0b011#3 .chB v).toNat = 0xB0 + (clampTo v 0 4095).toNat / 256)

/-- R190, R195: `dac.write` on a quiet block sends exactly one frame and leaves the lines, the bus and the
guard as they were; a malformed destination is rejected before any bus activity. -/
def Obligations.DacWriteSendsOneFrame : Prop :=
  (∀ (cs sub : Nat) (arg : Word), cs ≤ 3 → sub ≤ 3 →
    decode (wordD 0x80000000#32 cs sub) arg = .ok (.dacWrite cs sub arg.toInt)) ∧
  (∀ (cs sub : Nat) (v : Int) (s : State), ¬ (cs ≤ 1 ∧ sub ≤ 1) →
    Rejected (.dacWrite cs sub v) s (.badDest 0x20#6 [cs, sub]) (-2)) ∧
  (∀ (c : ChipSel) (d : SubDac) (v : Int) (s : State), Quiet s →
    exec (.dacWrite c.index d.index v) s = .next { s with
      trace := s.trace ++ writeEvents s c d v, results := s.results ++ [0#32] })

/-- R196, R197: `out.write` on a quiet block checks its id first, then the routing validation, and then
sends one frame to the destination the table gives. -/
def Obligations.OutWriteRoutesItsFrame : Prop :=
  (∀ (o : Nat) (arg : Word), o ≤ 7 →
    decode (wordT 0x84000000#32 o) arg = .ok (.outWrite o arg.toInt)) ∧
  (∀ (o : Nat) (v : Int) (s : State), ¬ (1 ≤ o ∧ o ≤ 4) →
    Rejected (.outWrite o v) s (.invalidId 0x21#6 o) (-1)) ∧
  (∀ (o : Chan) (v : Int) (s : State), s.cfgErr = true →
    Rejected (.outWrite o.id v) s (.badDest 0x21#6 [o.id]) (-2)) ∧
  (∀ (o : Chan) (c : ChipSel) (d : SubDac) (v : Int) (s : State), Quiet s → s.cfgErr = false →
    s.cfg.route.get o = ⟨c.index, d.index⟩ →
    exec (.outWrite o.id v) s = .next { s with
      trace := s.trace ++ writeEvents s c d v, results := s.results ++ [0#32] }) ∧
  (∀ (c : ChipSel) (d : SubDac) (v : Int) (s : State), Quiet s → s.cfgErr = true →
    ∃ t, exec (.dacWrite c.index d.index v) s = .next t ∧ t.results = s.results ++ [0#32]) ∧
  State.reset.cfgErr = false

/-- R193: a DAC write requested while `busy = 1` waits, keeping its place on the command port, is neither
rejected nor merged, and runs once `busy = 0`. That it waits on the port is the model's form (log 9). -/
def Obligations.BusyWriteHolds : Prop :=
  ∀ (s : State) (cw arg : Word) (rest : List PortInput) (i : Instr),
    s.port = .command cw arg :: rest → decode cw arg = .ok i →
    dacRequest? i s ≠ none → s.busy = true →
    step s = .next s ∧
    step { s with busy := false } = exec i { s with busy := false, port := rest }

/-- R194: after each step of a DAC write the destination line is low exactly from step a to step e, the
bus is owned exactly from step b to step d, and the other line is high. -/
def Obligations.LinesDuringDacWrite : Prop :=
  ∀ (c c' : ChipSel) (d : SubDac) (v : Int) (s : State) (k : Nat), Quiet s → c' ≠ c →
    let t := runSequence ((dacSequence s.cfg c d v).take k) s
    (t.csN.get c = false ↔ 2 ≤ k ∧ k ≤ 6) ∧ t.csN.get c' = true ∧
    (t.busOwned = true ↔ 3 ≤ k ∧ k ≤ 5) ∧ (t.busy = true ↔ 1 ≤ k ∧ k ≤ 7)

/-- R200, R201: only `dac.write` and `out.write` put a bus event on the trace or change `cs_n`, `bus_owned`
or `busy`; every other command appends at most diagnostics. -/
def Obligations.OnlyDacWritesTouchTheBus : Prop :=
  ∀ (i : Instr) (s t : State), exec i s = .next t → writesDac i = false →
    t.csN = s.csN ∧ t.busOwned = s.busOwned ∧ t.busy = s.busy ∧
    ∃ ds : List Diag, t.trace = s.trace ++ ds.map .diag

/-- R68: the bits of a frame leave in the order `DF[15]` to `DF[0]`; at the pins each byte is stable on SDO
at the rising edges of SCK and SDO changes only while SCK is low (R67). -/
def Obligations.FrameLeavesMsbFirst : Prop :=
  (∀ (hz : Nat) (c : ChipSel) (ctrl3 : BitVec 3) (d : SubDac) (v : Int),
    sdoBits (sixEvents hz c (hiByte ctrl3 d v) (loByte v))
      = [15, 14, 13, 12, 11, 10, 9, 8, 7, 6, 5, 4, 3, 2, 1, 0].map (dacFrame ctrl3 d v).getLsbD) ∧
  (∀ x : Byte, risingSamples (byteWave x) = (byteBits x).map some ∧
    sdoSteadyWhileHigh (byteWave x) = true)

/-- R206: with the observer, a successful `out.write` leaves the clamped value in the routed sub-DAC and
the other three as they were. -/
def Obligations.ObserverSeesClampedValue : Prop :=
  ∀ (o : Chan) (v : Int) (s : State) (w : Observer), Inv s → routeOk s.cfg.route = true →
    (∀ c, (w.chips.get c).selected = false) →
    ∃ t events c d, exec (.outWrite o.id v) s = .next t ∧ t.trace = s.trace ++ events ∧
      s.cfg.route.get o = ⟨c.index, d.index⟩ ∧
      (((w.watch events).dacReg c d).toNat : Int) = clampTo v 0 4095 ∧
      ∀ c' d', (c', d') ≠ (c, d) → (w.watch events).dacReg c' d' = w.dacReg c' d'

/-- R31: what `ROUTE_OK` checks, that a table passing it is a bijection onto the four destinations, and that
the default table passes. -/
def Obligations.RouteValidationIsBijection : Prop :=
  (∀ r : Four Dest, routeOk r = true ↔
    (∀ o, (r.get o).cs ≤ 1 ∧ (r.get o).sub ≤ 1) ∧ (∀ o o', r.get o = r.get o' → o = o') ∧
    (∃ o, (r.get o).cs = 0) ∧ ∃ o, (r.get o).cs = 1) ∧
  (∀ r : Four Dest, routeOk r = true → ∀ cs sub : Nat, cs ≤ 1 → sub ≤ 1 →
    ∃! o, r.get o = ⟨cs, sub⟩) ∧
  routeOk Config.params.route = true

/-! ## System commands -/

/-- R220: `sys.nop` is the all-zero word and does nothing; any other word with its `OP` is illegal. -/
def Obligations.SysNopDoesNothing : Prop :=
  (∀ arg : Word, decode 0#32 arg = .ok .sysNop) ∧
  (∀ cw : Word, opOf cw = 0#6 → cw ≠ 0#32 → IllegalWord cw) ∧
  (∀ s : State, Answers .sysNop s 0#32)

/-- R221: `sys.cycle` clears every ghost bit and changes nothing else, twice as once. -/
def Obligations.SysCycleClearsGhostBits : Prop :=
  (∀ arg : Word, decode 0x04000000#32 arg = .ok .sysCycle) ∧
  (∀ s : State, ∃ t, exec .sysCycle s = .next t ∧ t.results = s.results ++ [0#32] ∧
    (∀ (b : Bank) (c : Chan), t.channel b c = { s.channel b c with fresh := false }) ∧
    (∀ c, t.trig c = { s.trig c with fresh := false }) ∧
    SameButChannels s t ∧ t.env = s.env ∧
    (∀ (b : Bank) (c : Chan), staleQuery (.anChanged b c.id) t = true) ∧
    ∃ u, exec .sysCycle t = .next u ∧ u.analog = t.analog ∧ u.trigger = t.trigger)

/-- R222: `sys.status` reads `cfg_err`, `busy` and the lines in their bits, the rest 0; on a quiet block the
result is 12 or 13. -/
def Obligations.SysStatusReadsItsBits : Prop :=
  (∀ arg : Word, decode 0x08000000#32 arg = .ok .sysStatus) ∧
  (∀ s : State, ∃ w : Word, Answers .sysStatus s w ∧
    w.getLsbD 0 = s.cfgErr ∧ w.getLsbD 1 = s.busy ∧ w.getLsbD 2 = s.csN.cs0 ∧
    w.getLsbD 3 = s.csN.cs1 ∧ ∀ n, 4 ≤ n → w.getLsbD n = false) ∧
  (∀ s : State, Quiet s → Answers .sysStatus s (if s.cfgErr then 0xD#32 else 0xC#32))

/-! ## Errors -/

/-- R241: the result of a command is its error code where the table gives it one, and otherwise is not
negative and within the command's range; so a negative result always means an error. -/
def Obligations.NegativeResultMeansError : Prop :=
  ∀ (i : Instr) (s : State), Inv s → ∃ t r, exec i s = .next t ∧ t.results = s.results ++ [r] ∧
    (∀ e, errorOf i s = some e → r.toInt = e) ∧
    (errorOf i s = none → 0 ≤ r.toInt ∧ r.toInt ≤ maxResult i)

/-- R243: a rejected command (one whose result is negative, a Boolean query with an invalid id, an illegal word)
has no effect but its code and an optional diagnostic, and repeated it gives the same code. -/
def Obligations.ErrorHasNoOtherEffect : Prop :=
  (∀ (i : Instr) (s t : State) (r : Word), exec i s = .next t → t.results = s.results ++ [r] →
    r.toInt < 0 → OnlyCode s t r ∧ ∃ u, exec i t = .next u ∧ u.results = t.results ++ [r]) ∧
  (∀ (b : Bank) (ch : Nat) (s : State), ¬ (1 ≤ ch ∧ ch ≤ 4) → ∀ i ∈ booleanQueries b ch,
    ∃ t, exec i s = .next t ∧ OnlyCode s t 0#32 ∧
      ∃ u, exec i t = .next u ∧ u.results = t.results ++ [0#32]) ∧
  (∀ (s : State) (cw arg : Word) (rest : List PortInput),
    s.port = .command cw arg :: .command cw arg :: rest → IllegalWord cw →
    ∃ t u, step s = .next t ∧ OnlyCode { s with port := .command cw arg :: rest } t (rsp (-3)) ∧
      step t = .next u ∧ u.results = t.results ++ [rsp (-3)])

/-- R245: a diagnostic never changes a result or any other state. With `DIAG_EMIT` false a command does what it
does with it as it is, less the diagnostics, of which one command emits at most one. -/
def Obligations.DiagnosticsChangeNothingElse : Prop :=
  ∀ (i : Instr) (s t : State), exec i s = .next t → ∃ events,
    t.trace = s.trace ++ events ∧ (events.filter isDiag).length ≤ 1 ∧
    exec i (withoutDiags s) =
      .next { withoutDiags t with trace := s.trace ++ events.filter fun e => !isDiag e }

/-! ## Reset -/

/-- R45, for the values it gives: the lines 1, the bus and the guard 0, `cfg_err` the failed validation, the
ghost bits 0, the trace empty. It says nothing of the registers whose value is a draw. -/
def Obligations.ResetValues : Prop :=
  State.reset.csN = ⟨true, true⟩ ∧ State.reset.busOwned = false ∧ State.reset.busy = false ∧
  State.reset.cfgErr = !routeOk State.reset.cfg.route ∧ State.reset.trace = [] ∧
  (∀ (b : Bank) (c : Chan), (State.reset.channel b c).fresh = false) ∧ ∀ c, (State.reset.trig c).fresh = false

/-- `rst` between commands (R270, R271, R273): the same values whatever state the block was in, and no event
is added in a quiet state. The model's choice (log 7, unsafe there), on which the spec is silent: the
parameters, the host's pending inputs and the results already returned stay, and the trace so far is kept as
an ended trace. -/
def Obligations.RstGivesResetValues : Prop :=
  ∀ (s : State) (rest : List PortInput), s.port = .reset :: rest →
    ∃ t, step s = .next t ∧ t.csN = ⟨true, true⟩ ∧ t.busOwned = false ∧ t.busy = false ∧
      t.cfgErr = !routeOk s.cfg.route ∧ t.trace = [] ∧
      (∀ (b : Bank) (c : Chan), (t.channel b c).fresh = false) ∧ (∀ c, (t.trig c).fresh = false) ∧
      t.cfg = s.cfg ∧ t.port = rest ∧ t.results = s.results ∧
      (Quiet s → t.endedTraces = s.endedTraces ++ [s.trace])

/-- R274: reset after `k` steps of a DAC write abandons it: the bus is closed if it was open, then the line
goes high if it was low; the command returns no result. -/
def Obligations.ResetAbandonsDacWrite : Prop :=
  ∀ (s : State) (cw arg : Word) (k : Nat) (rest : List PortInput) (i : Instr) (c : ChipSel)
    (d : SubDac) (v : Int),
    s.port = .resetDuring cw arg k :: rest → decode cw arg = .ok i →
    dacRequest? i s = some (c, d, v) → Quiet s →
    ∃ t, step s = .next t ∧ Quiet t ∧ t.results = s.results ∧ t.trace = [] ∧
      t.endedTraces = s.endedTraces ++
        [s.trace ++ (writeEvents s c d v).take (if k ≤ 1 then 0 else k - 1) ++
          (if 3 ≤ k ∧ k ≤ 5 then [.release] else []) ++
          (if 2 ≤ k ∧ k ≤ 6 then [.csDeassert c] else [])]

/-- Reset while a command runs that is making no DAC write: a command of another kind, a rejected write, a write
still waiting for the guard, or an illegal word. It does what reset between commands does: nothing of the
command is done and it returns no result. The model's choice (log 8, after R13 and R274). -/
def Obligations.ResetDuringOtherCommandsUndoesThem : Prop :=
  ∀ (s : State) (cw arg : Word) (k : Nat) (rest : List PortInput),
    s.port = .resetDuring cw arg k :: rest →
    (IllegalWord cw ∨ ∃ i, decode cw arg = .ok i ∧
      (writesDac i = false ∨ errorOf i s ≠ none ∨ s.busy = true)) →
    step s = step { s with port := .reset :: rest } ∧
    ∃ t, step s = .next t ∧ t.results = s.results ∧ t.trace = [] ∧
      (Quiet s → t.endedTraces = s.endedTraces ++ [s.trace])

/-- R275: after any reset, the first or a later one, every query of a channel is stale until the channel is
updated or refreshed, whatever other commands come first, and the channel's first `an.update` moves the
unspecified reset value of `current` into `last`. That value is a free value (log 3). -/
def Obligations.AfterResetQueriesAreStale : Prop :=
  ∀ (r : State) (n : Nat), IsReset r n →
    (∀ (b : Bank) (c : Chan) (first : List Instr) (t : State), .anUpdate b c.id ∉ first →
      execAll first r = .next t →
      staleQuery (.anChanged b c.id) t = true ∧
      ∃ u, exec (.anUpdate b c.id) t = .next u ∧ (u.channel b c).last = Config.resetCurrent n b c) ∧
    (∀ (c : Chan) (first : List Instr) (t : State), .trRefresh c.id ∉ first →
      execAll first r = .next t →
      ∀ i ∈ [Instr.trRose c.id, .trFell c.id, .trHigh c.id, .trLow c.id], staleQuery i t = true)

/-! ## The whole machine -/

/-- The invariant holds after reset. -/
def Obligations.ResetMeetsInvariant : Prop := Inv State.reset

/-- Every step keeps the invariant: the block is quiet between inputs, `cfg_err` is the failed validation, the
trace is a sequence of whole frames and diagnostics, and every earlier trace ended as R274 says
(R36, R71, R186, R191, R200, R274). -/
def Obligations.StepKeepsInvariant : Prop :=
  ∀ s t : State, Inv s → step s = .next t → Inv t

/-- R192: the two chip-select lines are never low together, in any state of any run and anywhere along any
trace, resets inside writes included. Ended traces are the model's form (log 7). -/
def Obligations.ChipSelectsNeverLowTogether : Prop :=
  ∀ (k : Nat) (s t : State), Inv s → Host.Core.run Sys2Proof.core k s = .next t →
    linesExclusive t.csN ∧ TraceExclusive t.trace ∧ ∀ u ∈ t.endedTraces, TraceExclusive u

/-- The parameters never change; `cfg_err` is unchanged by every step whose input is no reset, and is computed
anew by one whose input is (R36, R43, R271). -/
def Obligations.ConfigurationIsFixed : Prop :=
  ∀ s t : State, step s = .next t →
    t.cfg = s.cfg ∧ (¬ ResetNext s → t.cfgErr = s.cfgErr) ∧
    (ResetNext s → t.cfgErr = !routeOk s.cfg.route)

/-- The results only grow. The trace only grows in every step whose input is no reset, and a reset, and nothing
else, ends it: what was emitted is kept, in order (R42, R74). That an ended trace is kept, and the results over
a reset, is the model's choice (log 7). -/
def Obligations.OutputsOnlyGrow : Prop :=
  ∀ s t : State, step s = .next t →
    s.results <+: t.results ∧
    (¬ ResetNext s → s.trace <+: t.trace ∧ t.endedTraces = s.endedTraces) ∧
    (ResetNext s → t.trace = [] ∧ ∃ u, s.trace <+: u ∧ t.endedTraces = s.endedTraces ++ [u])

/-! ## Pseudo-commands -/

/-- R101: the expansions, and what a read of a whole bank does: one result per command, in order, each the
new `current` of its channel, with every old `current` moved to `last`. -/
def Obligations.PseudoCommandsExpand : Prop :=
  (∀ (b : Bank) (ch : Nat),
    Pseudo.expand (.anRead b ch) = [.anUpdate b ch] ∧
    Pseudo.expand (.anReadraw b ch) = [.anRaw b ch] ∧
    Pseudo.expand (.trRead ch) = [.trRefresh ch] ∧ Pseudo.expand (.trReadraw ch) = [.trRaw ch] ∧
    Pseudo.expand (.anReadall b) = [.anUpdate b 1, .anUpdate b 2, .anUpdate b 3, .anUpdate b 4] ∧
    Pseudo.expand .trReadall = [.trRefresh 1, .trRefresh 2, .trRefresh 3, .trRefresh 4]) ∧
  (∀ (b : Bank) (s : State), ∃ t, execAll (Pseudo.expand (.anReadall b)) s = .next t ∧
    t.results = s.results ++ [rspSample (t.channel b .c1).current, rspSample (t.channel b .c2).current,
      rspSample (t.channel b .c3).current, rspSample (t.channel b .c4).current] ∧
    (∀ c, (t.channel b c).last = (s.channel b c).current) ∧
    (∀ b' c, b' ≠ b → t.channel b' c = s.channel b' c) ∧ t.trigger = s.trigger) ∧
  (∀ s : State, ∃ t, execAll (Pseudo.expand .trReadall) s = .next t ∧
    t.results = s.results ++ [0#32, 0#32, 0#32, 0#32] ∧
    (∀ c, (t.trig c).fresh = true) ∧ t.analog = s.analog)
end

