-- ==== Sys2Proof/Laws/Operands.lean ====
section
/-! SUPPORT. The small lemmas of Operands.lean: register files, ids and destinations. -/

namespace Sys2Proof

/-! ### Register files -/

@[simp] theorem Four.get_set_same {α : Type} (f : Four α) (c : Chan) (x : α) :
    (f.set c x).get c = x := by cases c <;> rfl

theorem Four.get_set_other {α : Type} (f : Four α) {c d : Chan} (x : α) (h : d ≠ c) :
    (f.set c x).get d = f.get d := by cases c <;> cases d <;> first | rfl | exact absurd rfl h

@[simp] theorem Four.set_set {α : Type} (f : Four α) (c : Chan) (x y : α) :
    (f.set c x).set c y = f.set c y := by cases c <;> rfl

@[simp] theorem Four.get_ofFn {α : Type} (g : Chan → α) (c : Chan) : (Four.ofFn g).get c = g c := by
  cases c <;> rfl

@[simp] theorem Four.get_map {α β : Type} (g : α → β) (f : Four α) (c : Chan) :
    (f.map g).get c = g (f.get c) := by cases c <;> rfl

@[simp] theorem Banks.get_set_same {α : Type} (k : Banks α) (b : Bank) (c : Chan) (x : α) :
    (k.set b c x).get b c = x := by cases b <;> simp [Banks.get, Banks.set]

theorem Banks.get_set_other {α : Type} (k : Banks α) {b b' : Bank} {c c' : Chan} (x : α)
    (h : (b', c') ≠ (b, c)) : (k.set b c x).get b' c' = k.get b' c' := by
  cases b <;> cases b' <;> simp [Banks.get, Banks.set] at h ⊢ <;> exact Four.get_set_other _ _ h

@[simp] theorem Banks.set_set {α : Type} (k : Banks α) (b : Bank) (c : Chan) (x y : α) :
    (k.set b c x).set b c y = k.set b c y := by cases b <;> simp [Banks.set]

@[simp] theorem Banks.get_ofFn {α : Type} (g : Bank → Chan → α) (b : Bank) (c : Chan) :
    (Banks.ofFn g).get b c = g b c := by cases b <;> simp [Banks.get, Banks.ofFn]

@[simp] theorem Banks.get_map {α β : Type} (g : α → β) (k : Banks α) (b : Bank) (c : Chan) :
    (k.map g).get b c = g (k.get b c) := by cases b <;> simp [Banks.get, Banks.map]

@[simp] theorem Lines.get_set_same {α : Type} (l : Lines α) (c : ChipSel) (x : α) :
    (l.set c x).get c = x := by cases c <;> rfl

theorem Lines.get_set_other {α : Type} (l : Lines α) {c d : ChipSel} (x : α) (h : d ≠ c) :
    (l.set c x).get d = l.get d := by cases c <;> cases d <;> first | rfl | exact absurd rfl h

@[simp] theorem Lines.set_set {α : Type} (l : Lines α) (c : ChipSel) (x y : α) :
    (l.set c x).set c y = l.set c y := by cases c <;> rfl

/-! ### Ids and destinations -/

@[simp] theorem chan?_id (c : Chan) : chan? c.id = some c := by cases c <;> rfl

/-- A valid id is the id of the channel it names. -/
theorem id_of_chan? {ch : Nat} {c : Chan} (h : chan? ch = some c) : c.id = ch := by
  unfold chan? at h
  split at h <;> cases h <;> rfl

/-- Exactly the ids outside 1 to 4 name no channel. -/
theorem chan?_eq_none {ch : Nat} : chan? ch = none ↔ ¬ (1 ≤ ch ∧ ch ≤ 4) := by
  constructor
  · intro h hv
    have : ch = 1 ∨ ch = 2 ∨ ch = 3 ∨ ch = 4 := by omega
    rcases this with rfl | rfl | rfl | rfl <;> cases h
  · intro h
    unfold chan?
    split <;> first | rfl | (exfalso; omega)

@[simp] theorem dest?_index (c : ChipSel) (d : SubDac) : dest? c.index d.index = some (c, d) := by
  cases c <;> cases d <;> rfl

/-- A valid destination is the pair of indices of the line and sub-DAC it names. -/
theorem index_of_dest? {cs sub : Nat} {c : ChipSel} {d : SubDac} (h : dest? cs sub = some (c, d)) :
    c.index = cs ∧ d.index = sub := by
  unfold dest? chipSel? subDac? at h
  split at h <;> rename_i h₁ h₂
  · split at h₁ <;> split at h₂ <;> cases h₁ <;> cases h₂ <;> cases h <;> exact ⟨rfl, rfl⟩
  · cases h

/-- A destination with an index above 1 is malformed. -/
theorem dest?_eq_none {cs sub : Nat} : dest? cs sub = none ↔ 2 ≤ cs ∨ 2 ≤ sub := by
  rcases cs with _ | _ | cs <;> rcases sub with _ | _ | sub <;> simp [dest?, chipSel?, subDac?]

/-- A table that passes its validation has no entry without a destination. -/
theorem dest?_of_routeOk {r : Four Dest} (h : routeOk r = true) (c : Chan) :
    ∃ l d, dest? (r.get c).cs (r.get c).sub = some (l, d) := by
  simp only [routeOk, Bool.and_eq_true, List.all_cons, List.all_nil, Dest.inRange] at h
  obtain ⟨⟨⟨⟨h₁, h₂, h₃, h₄, -⟩, -⟩, -⟩, -⟩ := h
  have split_dest {d : Dest} (hd : (dest? d.cs d.sub).isSome = true) :
      ∃ l m, dest? d.cs d.sub = some (l, m) :=
    let ⟨p, hp⟩ := Option.isSome_iff_exists.mp hd
    ⟨p.1, p.2, hp⟩
  cases c <;> exact split_dest ‹_›

end Sys2Proof
end

