-- ==== Sys2Proof/Laws/State.lean ====
section
/-! SUPPORT. One lemma per field per update of State: what the update makes of the field. -/

namespace Sys2Proof.Machine

/-! ### `respond` -/

@[simp] theorem State.respond_cfg (s : State) (r : Word) : (s.respond r).cfg = s.cfg := rfl
@[simp] theorem State.respond_analog (s : State) (r : Word) : (s.respond r).analog = s.analog := rfl
@[simp] theorem State.respond_trigger (s : State) (r : Word) : (s.respond r).trigger = s.trigger := rfl
@[simp] theorem State.respond_csN (s : State) (r : Word) : (s.respond r).csN = s.csN := rfl
@[simp] theorem State.respond_busOwned (s : State) (r : Word) : (s.respond r).busOwned = s.busOwned := rfl
@[simp] theorem State.respond_busy (s : State) (r : Word) : (s.respond r).busy = s.busy := rfl
@[simp] theorem State.respond_cfgErr (s : State) (r : Word) : (s.respond r).cfgErr = s.cfgErr := rfl
@[simp] theorem State.respond_trace (s : State) (r : Word) : (s.respond r).trace = s.trace := rfl
@[simp] theorem State.respond_endedTraces (s : State) (r : Word) : (s.respond r).endedTraces = s.endedTraces := rfl
@[simp] theorem State.respond_results (s : State) (r : Word) : (s.respond r).results = s.results ++ [r] := rfl
@[simp] theorem State.respond_port (s : State) (r : Word) : (s.respond r).port = s.port := rfl
@[simp] theorem State.respond_env (s : State) (r : Word) : (s.respond r).env = s.env := rfl

/-! ### `emit` -/

@[simp] theorem State.emit_cfg (s : State) (e : Event) : (s.emit e).cfg = s.cfg := rfl
@[simp] theorem State.emit_analog (s : State) (e : Event) : (s.emit e).analog = s.analog := rfl
@[simp] theorem State.emit_trigger (s : State) (e : Event) : (s.emit e).trigger = s.trigger := rfl
@[simp] theorem State.emit_csN (s : State) (e : Event) : (s.emit e).csN = s.csN := rfl
@[simp] theorem State.emit_busOwned (s : State) (e : Event) : (s.emit e).busOwned = s.busOwned := rfl
@[simp] theorem State.emit_busy (s : State) (e : Event) : (s.emit e).busy = s.busy := rfl
@[simp] theorem State.emit_cfgErr (s : State) (e : Event) : (s.emit e).cfgErr = s.cfgErr := rfl
@[simp] theorem State.emit_trace (s : State) (e : Event) : (s.emit e).trace = s.trace ++ [e] := rfl
@[simp] theorem State.emit_endedTraces (s : State) (e : Event) : (s.emit e).endedTraces = s.endedTraces := rfl
@[simp] theorem State.emit_results (s : State) (e : Event) : (s.emit e).results = s.results := rfl
@[simp] theorem State.emit_port (s : State) (e : Event) : (s.emit e).port = s.port := rfl
@[simp] theorem State.emit_env (s : State) (e : Event) : (s.emit e).env = s.env := rfl

/-! ### `emitDiag` -/

@[simp] theorem State.emitDiag_cfg (s : State) (d : Diag) : (s.emitDiag d).cfg = s.cfg := rfl
@[simp] theorem State.emitDiag_analog (s : State) (d : Diag) : (s.emitDiag d).analog = s.analog := rfl
@[simp] theorem State.emitDiag_trigger (s : State) (d : Diag) : (s.emitDiag d).trigger = s.trigger := rfl
@[simp] theorem State.emitDiag_csN (s : State) (d : Diag) : (s.emitDiag d).csN = s.csN := rfl
@[simp] theorem State.emitDiag_busOwned (s : State) (d : Diag) : (s.emitDiag d).busOwned = s.busOwned := rfl
@[simp] theorem State.emitDiag_busy (s : State) (d : Diag) : (s.emitDiag d).busy = s.busy := rfl
@[simp] theorem State.emitDiag_cfgErr (s : State) (d : Diag) : (s.emitDiag d).cfgErr = s.cfgErr := rfl
@[simp] theorem State.emitDiag_trace (s : State) (d : Diag) : (s.emitDiag d).trace = s.trace ++ if s.cfg.diagEmit then [.diag d] else [] := rfl
@[simp] theorem State.emitDiag_endedTraces (s : State) (d : Diag) : (s.emitDiag d).endedTraces = s.endedTraces := rfl
@[simp] theorem State.emitDiag_results (s : State) (d : Diag) : (s.emitDiag d).results = s.results := rfl
@[simp] theorem State.emitDiag_port (s : State) (d : Diag) : (s.emitDiag d).port = s.port := rfl
@[simp] theorem State.emitDiag_env (s : State) (d : Diag) : (s.emitDiag d).env = s.env := rfl

/-! ### `reject` -/

@[simp] theorem State.reject_cfg (s : State) (d : Diag) (r : Word) : (s.reject d r).cfg = s.cfg := rfl
@[simp] theorem State.reject_analog (s : State) (d : Diag) (r : Word) : (s.reject d r).analog = s.analog := rfl
@[simp] theorem State.reject_trigger (s : State) (d : Diag) (r : Word) : (s.reject d r).trigger = s.trigger := rfl
@[simp] theorem State.reject_csN (s : State) (d : Diag) (r : Word) : (s.reject d r).csN = s.csN := rfl
@[simp] theorem State.reject_busOwned (s : State) (d : Diag) (r : Word) : (s.reject d r).busOwned = s.busOwned := rfl
@[simp] theorem State.reject_busy (s : State) (d : Diag) (r : Word) : (s.reject d r).busy = s.busy := rfl
@[simp] theorem State.reject_cfgErr (s : State) (d : Diag) (r : Word) : (s.reject d r).cfgErr = s.cfgErr := rfl
@[simp] theorem State.reject_trace (s : State) (d : Diag) (r : Word) : (s.reject d r).trace = s.trace ++ if s.cfg.diagEmit then [.diag d] else [] := rfl
@[simp] theorem State.reject_endedTraces (s : State) (d : Diag) (r : Word) : (s.reject d r).endedTraces = s.endedTraces := rfl
@[simp] theorem State.reject_results (s : State) (d : Diag) (r : Word) : (s.reject d r).results = s.results ++ [r] := rfl
@[simp] theorem State.reject_port (s : State) (d : Diag) (r : Word) : (s.reject d r).port = s.port := rfl
@[simp] theorem State.reject_env (s : State) (d : Diag) (r : Word) : (s.reject d r).env = s.env := rfl

/-! ### `setChannel` -/

@[simp] theorem State.setChannel_cfg (s : State) (b : Bank) (c : Chan) (x : AnalogChannel) : (s.setChannel b c x).cfg = s.cfg := rfl
@[simp] theorem State.setChannel_analog (s : State) (b : Bank) (c : Chan) (x : AnalogChannel) : (s.setChannel b c x).analog = s.analog.set b c x := rfl
@[simp] theorem State.setChannel_trigger (s : State) (b : Bank) (c : Chan) (x : AnalogChannel) : (s.setChannel b c x).trigger = s.trigger := rfl
@[simp] theorem State.setChannel_csN (s : State) (b : Bank) (c : Chan) (x : AnalogChannel) : (s.setChannel b c x).csN = s.csN := rfl
@[simp] theorem State.setChannel_busOwned (s : State) (b : Bank) (c : Chan) (x : AnalogChannel) : (s.setChannel b c x).busOwned = s.busOwned := rfl
@[simp] theorem State.setChannel_busy (s : State) (b : Bank) (c : Chan) (x : AnalogChannel) : (s.setChannel b c x).busy = s.busy := rfl
@[simp] theorem State.setChannel_cfgErr (s : State) (b : Bank) (c : Chan) (x : AnalogChannel) : (s.setChannel b c x).cfgErr = s.cfgErr := rfl
@[simp] theorem State.setChannel_trace (s : State) (b : Bank) (c : Chan) (x : AnalogChannel) : (s.setChannel b c x).trace = s.trace := rfl
@[simp] theorem State.setChannel_endedTraces (s : State) (b : Bank) (c : Chan) (x : AnalogChannel) : (s.setChannel b c x).endedTraces = s.endedTraces := rfl
@[simp] theorem State.setChannel_results (s : State) (b : Bank) (c : Chan) (x : AnalogChannel) : (s.setChannel b c x).results = s.results := rfl
@[simp] theorem State.setChannel_port (s : State) (b : Bank) (c : Chan) (x : AnalogChannel) : (s.setChannel b c x).port = s.port := rfl
@[simp] theorem State.setChannel_env (s : State) (b : Bank) (c : Chan) (x : AnalogChannel) : (s.setChannel b c x).env = s.env := rfl

/-! ### `setTrig` -/

@[simp] theorem State.setTrig_cfg (s : State) (c : Chan) (x : TriggerChannel) : (s.setTrig c x).cfg = s.cfg := rfl
@[simp] theorem State.setTrig_analog (s : State) (c : Chan) (x : TriggerChannel) : (s.setTrig c x).analog = s.analog := rfl
@[simp] theorem State.setTrig_trigger (s : State) (c : Chan) (x : TriggerChannel) : (s.setTrig c x).trigger = s.trigger.set c x := rfl
@[simp] theorem State.setTrig_csN (s : State) (c : Chan) (x : TriggerChannel) : (s.setTrig c x).csN = s.csN := rfl
@[simp] theorem State.setTrig_busOwned (s : State) (c : Chan) (x : TriggerChannel) : (s.setTrig c x).busOwned = s.busOwned := rfl
@[simp] theorem State.setTrig_busy (s : State) (c : Chan) (x : TriggerChannel) : (s.setTrig c x).busy = s.busy := rfl
@[simp] theorem State.setTrig_cfgErr (s : State) (c : Chan) (x : TriggerChannel) : (s.setTrig c x).cfgErr = s.cfgErr := rfl
@[simp] theorem State.setTrig_trace (s : State) (c : Chan) (x : TriggerChannel) : (s.setTrig c x).trace = s.trace := rfl
@[simp] theorem State.setTrig_endedTraces (s : State) (c : Chan) (x : TriggerChannel) : (s.setTrig c x).endedTraces = s.endedTraces := rfl
@[simp] theorem State.setTrig_results (s : State) (c : Chan) (x : TriggerChannel) : (s.setTrig c x).results = s.results := rfl
@[simp] theorem State.setTrig_port (s : State) (c : Chan) (x : TriggerChannel) : (s.setTrig c x).port = s.port := rfl
@[simp] theorem State.setTrig_env (s : State) (c : Chan) (x : TriggerChannel) : (s.setTrig c x).env = s.env := rfl

/-! ### `setCsN` -/

@[simp] theorem State.setCsN_cfg (s : State) (c : ChipSel) (p : Bool) : (s.setCsN c p).cfg = s.cfg := rfl
@[simp] theorem State.setCsN_analog (s : State) (c : ChipSel) (p : Bool) : (s.setCsN c p).analog = s.analog := rfl
@[simp] theorem State.setCsN_trigger (s : State) (c : ChipSel) (p : Bool) : (s.setCsN c p).trigger = s.trigger := rfl
@[simp] theorem State.setCsN_csN (s : State) (c : ChipSel) (p : Bool) : (s.setCsN c p).csN = s.csN.set c p := rfl
@[simp] theorem State.setCsN_busOwned (s : State) (c : ChipSel) (p : Bool) : (s.setCsN c p).busOwned = s.busOwned := rfl
@[simp] theorem State.setCsN_busy (s : State) (c : ChipSel) (p : Bool) : (s.setCsN c p).busy = s.busy := rfl
@[simp] theorem State.setCsN_cfgErr (s : State) (c : ChipSel) (p : Bool) : (s.setCsN c p).cfgErr = s.cfgErr := rfl
@[simp] theorem State.setCsN_trace (s : State) (c : ChipSel) (p : Bool) : (s.setCsN c p).trace = s.trace := rfl
@[simp] theorem State.setCsN_endedTraces (s : State) (c : ChipSel) (p : Bool) : (s.setCsN c p).endedTraces = s.endedTraces := rfl
@[simp] theorem State.setCsN_results (s : State) (c : ChipSel) (p : Bool) : (s.setCsN c p).results = s.results := rfl
@[simp] theorem State.setCsN_port (s : State) (c : ChipSel) (p : Bool) : (s.setCsN c p).port = s.port := rfl
@[simp] theorem State.setCsN_env (s : State) (c : ChipSel) (p : Bool) : (s.setCsN c p).env = s.env := rfl

/-! ### `setBusOwned` -/

@[simp] theorem State.setBusOwned_cfg (s : State) (p : Bool) : (s.setBusOwned p).cfg = s.cfg := rfl
@[simp] theorem State.setBusOwned_analog (s : State) (p : Bool) : (s.setBusOwned p).analog = s.analog := rfl
@[simp] theorem State.setBusOwned_trigger (s : State) (p : Bool) : (s.setBusOwned p).trigger = s.trigger := rfl
@[simp] theorem State.setBusOwned_csN (s : State) (p : Bool) : (s.setBusOwned p).csN = s.csN := rfl
@[simp] theorem State.setBusOwned_busOwned (s : State) (p : Bool) : (s.setBusOwned p).busOwned = p := rfl
@[simp] theorem State.setBusOwned_busy (s : State) (p : Bool) : (s.setBusOwned p).busy = s.busy := rfl
@[simp] theorem State.setBusOwned_cfgErr (s : State) (p : Bool) : (s.setBusOwned p).cfgErr = s.cfgErr := rfl
@[simp] theorem State.setBusOwned_trace (s : State) (p : Bool) : (s.setBusOwned p).trace = s.trace := rfl
@[simp] theorem State.setBusOwned_endedTraces (s : State) (p : Bool) : (s.setBusOwned p).endedTraces = s.endedTraces := rfl
@[simp] theorem State.setBusOwned_results (s : State) (p : Bool) : (s.setBusOwned p).results = s.results := rfl
@[simp] theorem State.setBusOwned_port (s : State) (p : Bool) : (s.setBusOwned p).port = s.port := rfl
@[simp] theorem State.setBusOwned_env (s : State) (p : Bool) : (s.setBusOwned p).env = s.env := rfl

/-! ### `setBusy` -/

@[simp] theorem State.setBusy_cfg (s : State) (p : Bool) : (s.setBusy p).cfg = s.cfg := rfl
@[simp] theorem State.setBusy_analog (s : State) (p : Bool) : (s.setBusy p).analog = s.analog := rfl
@[simp] theorem State.setBusy_trigger (s : State) (p : Bool) : (s.setBusy p).trigger = s.trigger := rfl
@[simp] theorem State.setBusy_csN (s : State) (p : Bool) : (s.setBusy p).csN = s.csN := rfl
@[simp] theorem State.setBusy_busOwned (s : State) (p : Bool) : (s.setBusy p).busOwned = s.busOwned := rfl
@[simp] theorem State.setBusy_busy (s : State) (p : Bool) : (s.setBusy p).busy = p := rfl
@[simp] theorem State.setBusy_cfgErr (s : State) (p : Bool) : (s.setBusy p).cfgErr = s.cfgErr := rfl
@[simp] theorem State.setBusy_trace (s : State) (p : Bool) : (s.setBusy p).trace = s.trace := rfl
@[simp] theorem State.setBusy_endedTraces (s : State) (p : Bool) : (s.setBusy p).endedTraces = s.endedTraces := rfl
@[simp] theorem State.setBusy_results (s : State) (p : Bool) : (s.setBusy p).results = s.results := rfl
@[simp] theorem State.setBusy_port (s : State) (p : Bool) : (s.setBusy p).port = s.port := rfl
@[simp] theorem State.setBusy_env (s : State) (p : Bool) : (s.setBusy p).env = s.env := rfl

/-! ### `setEnv` -/

@[simp] theorem State.setEnv_cfg (s : State) (e : Env) : (s.setEnv e).cfg = s.cfg := rfl
@[simp] theorem State.setEnv_analog (s : State) (e : Env) : (s.setEnv e).analog = s.analog := rfl
@[simp] theorem State.setEnv_trigger (s : State) (e : Env) : (s.setEnv e).trigger = s.trigger := rfl
@[simp] theorem State.setEnv_csN (s : State) (e : Env) : (s.setEnv e).csN = s.csN := rfl
@[simp] theorem State.setEnv_busOwned (s : State) (e : Env) : (s.setEnv e).busOwned = s.busOwned := rfl
@[simp] theorem State.setEnv_busy (s : State) (e : Env) : (s.setEnv e).busy = s.busy := rfl
@[simp] theorem State.setEnv_cfgErr (s : State) (e : Env) : (s.setEnv e).cfgErr = s.cfgErr := rfl
@[simp] theorem State.setEnv_trace (s : State) (e : Env) : (s.setEnv e).trace = s.trace := rfl
@[simp] theorem State.setEnv_endedTraces (s : State) (e : Env) : (s.setEnv e).endedTraces = s.endedTraces := rfl
@[simp] theorem State.setEnv_results (s : State) (e : Env) : (s.setEnv e).results = s.results := rfl
@[simp] theorem State.setEnv_port (s : State) (e : Env) : (s.setEnv e).port = s.port := rfl
@[simp] theorem State.setEnv_env (s : State) (e : Env) : (s.setEnv e).env = e := rfl

/-! ### `setPort` -/

@[simp] theorem State.setPort_cfg (s : State) (p : List PortInput) : (s.setPort p).cfg = s.cfg := rfl
@[simp] theorem State.setPort_analog (s : State) (p : List PortInput) : (s.setPort p).analog = s.analog := rfl
@[simp] theorem State.setPort_trigger (s : State) (p : List PortInput) : (s.setPort p).trigger = s.trigger := rfl
@[simp] theorem State.setPort_csN (s : State) (p : List PortInput) : (s.setPort p).csN = s.csN := rfl
@[simp] theorem State.setPort_busOwned (s : State) (p : List PortInput) : (s.setPort p).busOwned = s.busOwned := rfl
@[simp] theorem State.setPort_busy (s : State) (p : List PortInput) : (s.setPort p).busy = s.busy := rfl
@[simp] theorem State.setPort_cfgErr (s : State) (p : List PortInput) : (s.setPort p).cfgErr = s.cfgErr := rfl
@[simp] theorem State.setPort_trace (s : State) (p : List PortInput) : (s.setPort p).trace = s.trace := rfl
@[simp] theorem State.setPort_endedTraces (s : State) (p : List PortInput) : (s.setPort p).endedTraces = s.endedTraces := rfl
@[simp] theorem State.setPort_results (s : State) (p : List PortInput) : (s.setPort p).results = s.results := rfl
@[simp] theorem State.setPort_port (s : State) (p : List PortInput) : (s.setPort p).port = p := rfl
@[simp] theorem State.setPort_env (s : State) (p : List PortInput) : (s.setPort p).env = s.env := rfl

/-! ### `clearFresh` -/

@[simp] theorem State.clearFresh_cfg (s : State) : (s.clearFresh).cfg = s.cfg := rfl
@[simp] theorem State.clearFresh_analog (s : State) : (s.clearFresh).analog = s.analog.map fun x => { x with fresh := false } := rfl
@[simp] theorem State.clearFresh_trigger (s : State) : (s.clearFresh).trigger = s.trigger.map fun x => { x with fresh := false } := rfl
@[simp] theorem State.clearFresh_csN (s : State) : (s.clearFresh).csN = s.csN := rfl
@[simp] theorem State.clearFresh_busOwned (s : State) : (s.clearFresh).busOwned = s.busOwned := rfl
@[simp] theorem State.clearFresh_busy (s : State) : (s.clearFresh).busy = s.busy := rfl
@[simp] theorem State.clearFresh_cfgErr (s : State) : (s.clearFresh).cfgErr = s.cfgErr := rfl
@[simp] theorem State.clearFresh_trace (s : State) : (s.clearFresh).trace = s.trace := rfl
@[simp] theorem State.clearFresh_endedTraces (s : State) : (s.clearFresh).endedTraces = s.endedTraces := rfl
@[simp] theorem State.clearFresh_results (s : State) : (s.clearFresh).results = s.results := rfl
@[simp] theorem State.clearFresh_port (s : State) : (s.clearFresh).port = s.port := rfl
@[simp] theorem State.clearFresh_env (s : State) : (s.clearFresh).env = s.env := rfl

end Sys2Proof.Machine
end

