-- ==== Sys2Proof/Laws/Ops.lean ====
section
/-! SUPPORT. What the shared operations can do, each said once: queries, updates, the DAC sequence,
reset, and the ways a command and a step can end. -/

namespace Sys2Proof.Machine

@[simp] theorem channel_setChannel_same (s : State) (b : Bank) (c : Chan) (x : AnalogChannel) :
    (s.setChannel b c x).channel b c = x := by simp [State.channel]

@[simp] theorem trig_setTrig_same (s : State) (c : Chan) (x : TriggerChannel) :
    (s.setTrig c x).trig c = x := by simp [State.trig]

/-! ### Queries -/

theorem answerQuery_fresh (latch : Bool) (s : State) :
    answerQuery true latch s = s.respond (boolResult latch) := rfl

theorem answerQuery_draw (latch : Bool) {s : State} (h : s.cfg.stalePolicy = .draw) :
    answerQuery false latch s
      = (s.setEnv s.env.afterStale).respond (boolResult s.env.staleAnswer) := by
  simp [answerQuery, h, drawStale]

theorem answerQuery_latch (latch : Bool) {s : State} (h : s.cfg.stalePolicy = .latch) :
    answerQuery false latch s = s.respond (boolResult latch) := by simp [answerQuery, h]

/-- A query changes nothing but the environment and its result. -/
theorem answerQuery_cases (fresh latch : Bool) (s : State) :
    ∃ e r, answerQuery fresh latch s = (s.setEnv e).respond r := by
  cases fresh
  · cases h : s.cfg.stalePolicy
    · exact ⟨_, _, answerQuery_draw latch h⟩
    · exact ⟨s.env, _, answerQuery_latch latch h⟩
  · exact ⟨s.env, _, answerQuery_fresh latch s⟩

/-! ### Updates -/

/-- All a valid `an.update` does (R120). -/
theorem updateChannel_eq (b : Bank) (c : Chan) (s : State) :
    updateChannel b c s =
      let x   := s.channel b c
      let k   := feedCollab x.smooth (s.env.rawAnswer b c)
      let rep := s.env.afterRaw.smoothAnswer b c k
      { s with
        analog  := s.analog.set b c
          { current := rep.1, last := x.current, chg := rep.2, smooth := k, fresh := true }
        env     := s.env.afterRaw.afterSmooth
        results := s.results ++ [sampleResult rep.1] } := by
  simp [updateChannel, readRaw, smoothUpdate, State.channel, State.setChannel, State.setEnv,
    State.respond]

/-- All a valid `tr.refresh` does (R140). -/
theorem refreshTrigger_eq (c : Chan) (s : State) :
    refreshTrigger c s =
      let k   := feedCollab (s.trig c).deb s.env.clockAnswer
      let rep := s.env.afterClock.debounceAnswer c k
      { s with
        trigger := s.trigger.set c
          { riseE := rep.rise, fallE := rep.fall, lvlE := rep.level, deb := k, fresh := true }
        env     := s.env.afterClock.afterDebounce
        results := s.results ++ [0#32] } := by
  simp [refreshTrigger, nowMs, debounceRefresh, State.trig, State.setTrig, State.setEnv,
    State.respond]

/-! ### The DAC sequence -/

/-- The events of one whole write (R200). -/
def frameEvents (p : Params) (c : ChipSel) (d : SubDac) (v : Int) : List Event :=
  let df := dacFrame p.dacCtrl3 d v
  [.csAssert c, .claim p.dacSckHz .msbFirst .cpol0Cpha0, .xfer (frameHi df), .xfer (frameLo df),
    .release, .csDeassert c]

/-- The whole sequence leaves its line high and the bus free, and appends the six events. -/
theorem runSequence_all (c : ChipSel) (d : SubDac) (v : Int) (s : State) :
    runSequence (dacSequence s.cfg c d v) s =
      { s with
        csN := s.csN.set c true, busOwned := false, busy := false,
        trace := s.trace ++ frameEvents s.cfg c d v } := by
  simp [runSequence, dacSequence, SeqStep.run, csAssert, csDeassert, busClaim, busTransmit,
    busRelease, State.setCsN, State.setBusOwned, State.setBusy, State.emit, frameEvents]

theorem dacWrite_busy (i : Instr) (c : ChipSel) (d : SubDac) (v : Int) {s : State}
    (h : s.busy = true) : dacWrite i c d v s = holdRequest i s := by simp [dacWrite, h]

theorem dacWrite_idle (i : Instr) (c : ChipSel) (d : SubDac) (v : Int) {s : State}
    (h : s.busy = false) :
    dacWrite i c d v s =
      { s with
        csN := s.csN.set c true, busOwned := false, busy := false,
        trace := s.trace ++ frameEvents s.cfg c d v, results := s.results ++ [0#32] } := by
  simp [dacWrite, h, runSequence_all, State.respond]

/-! ### Reset -/

@[simp] theorem rst_cfg (s : State) : (rst s).cfg = s.cfg := rfl
@[simp] theorem rst_csN (s : State) : (rst s).csN = ⟨true, true⟩ := rfl
@[simp] theorem rst_busOwned (s : State) : (rst s).busOwned = false := rfl
@[simp] theorem rst_busy (s : State) : (rst s).busy = false := rfl
@[simp] theorem rst_cfgErr (s : State) : (rst s).cfgErr = !routeOk s.cfg.route := rfl
@[simp] theorem rst_trace (s : State) : (rst s).trace = [] := rfl
@[simp] theorem rst_endedTraces (s : State) :
    (rst s).endedTraces = s.endedTraces ++ [s.trace ++ abandonEvents s] := rfl
@[simp] theorem rst_results (s : State) : (rst s).results = s.results := rfl
@[simp] theorem rst_port (s : State) : (rst s).port = s.port := rfl
@[simp] theorem rst_env (s : State) : (rst s).env = { s.env with draws := s.env.draws + 1 } := rfl

@[simp] theorem rst_channel (s : State) (b : Bank) (c : Chan) :
    (rst s).channel b c = AnalogChannel.afterReset s.env.draws b c := by
  simp [State.channel, rst, State.afterReset]

@[simp] theorem rst_trig (s : State) (c : Chan) :
    (rst s).trig c = TriggerChannel.afterReset s.env.draws c := by
  simp [State.trig, rst, State.afterReset]

/-! ### The ways a command can end -/

/-- All the ways a command can end: rejected; answered from the state and the environment; a new polling
cycle; a valid update or refresh; a DAC write. -/
inductive Ending (i : Instr) (s t : State) : Prop where
  | rejected (d : Diag) (code : Word) (h : t = s.reject d code)
  | answered (e : Env) (r : Word) (h : t = (s.setEnv e).respond r)
  | cycled (hi : i = .sysCycle) (h : t = s.clearFresh.respond 0#32)
  | updated (b : Bank) (c : Chan) (hi : i = .anUpdate b c.id) (h : t = updateChannel b c s)
  | refreshed (c : Chan) (hi : i = .trRefresh c.id) (h : t = refreshTrigger c s)
  | wrote (l : ChipSel) (d : SubDac) (v : Int) (hi : writesDac i = true)
      (h : t = dacWrite i l d v s)

theorem Ending.query (i : Instr) (fresh latch : Bool) (s : State) :
    Ending i s (answerQuery fresh latch s) :=
  let ⟨e, r, h⟩ := answerQuery_cases fresh latch s
  .answered e r h

theorem Ending.plain (i : Instr) (s : State) (r : Word) : Ending i s (s.respond r) :=
  .answered s.env r rfl

/-- Every command ends, in one of these ways (R240). -/
theorem exec_ends (i : Instr) (s : State) : ∃ t, exec i s = .next t ∧ Ending i s t := by
  cases i with
  | sysNop => exact ⟨_, rfl, .plain _ _ _⟩
  | sysCycle => exact ⟨_, rfl, .cycled rfl rfl⟩
  | sysStatus => exact ⟨_, rfl, .plain _ _ _⟩
  | anUpdate b ch =>
    cases h : chan? ch with
    | none => exact ⟨_, by simp only [exec, execAnUpdate, h]; rfl, .rejected _ _ rfl⟩
    | some c => exact ⟨_, by simp only [exec, execAnUpdate, h], .updated b c (by rw [id_of_chan? h]) rfl⟩
  | anChanged b ch =>
    cases h : chan? ch with
    | none => exact ⟨_, by simp only [exec, execAnChanged, h]; rfl, .rejected _ _ rfl⟩
    | some c => exact ⟨_, by simp only [exec, execAnChanged, h]; rfl, .query _ _ _ _⟩
  | anRaw b ch =>
    cases h : chan? ch with
    | none => exact ⟨_, by simp only [exec, execAnRaw, h]; rfl, .rejected _ _ rfl⟩
    | some c => exact ⟨_, by simp only [exec, execAnRaw, h]; rfl, .answered _ _ rfl⟩
  | anCur b ch =>
    cases h : chan? ch with
    | none => exact ⟨_, by simp only [exec, execAnCur, h]; rfl, .rejected _ _ rfl⟩
    | some c => exact ⟨_, by simp only [exec, execAnCur, h]; rfl, .plain _ _ _⟩
  | anLast b ch =>
    cases h : chan? ch with
    | none => exact ⟨_, by simp only [exec, execAnLast, h]; rfl, .rejected _ _ rfl⟩
    | some c => exact ⟨_, by simp only [exec, execAnLast, h]; rfl, .plain _ _ _⟩
  | trRefresh ch =>
    cases h : chan? ch with
    | none => exact ⟨_, by simp only [exec, execTrRefresh, h]; rfl, .rejected _ _ rfl⟩
    | some c => exact ⟨_, by simp only [exec, execTrRefresh, h], .refreshed c (by rw [id_of_chan? h]) rfl⟩
  | trRose ch =>
    cases h : chan? ch with
    | none => exact ⟨_, by simp only [exec, execTrRose, h]; rfl, .rejected _ _ rfl⟩
    | some c => exact ⟨_, by simp only [exec, execTrRose, h]; rfl, .query _ _ _ _⟩
  | trFell ch =>
    cases h : chan? ch with
    | none => exact ⟨_, by simp only [exec, execTrFell, h]; rfl, .rejected _ _ rfl⟩
    | some c => exact ⟨_, by simp only [exec, execTrFell, h]; rfl, .query _ _ _ _⟩
  | trHigh ch =>
    cases h : chan? ch with
    | none => exact ⟨_, by simp only [exec, execTrHigh, h]; rfl, .rejected _ _ rfl⟩
    | some c => exact ⟨_, by simp only [exec, execTrHigh, h]; rfl, .query _ _ _ _⟩
  | trLow ch =>
    cases h : chan? ch with
    | none => exact ⟨_, by simp only [exec, execTrLow, h]; rfl, .rejected _ _ rfl⟩
    | some c => exact ⟨_, by simp only [exec, execTrLow, h]; rfl, .query _ _ _ _⟩
  | trRaw ch =>
    cases h : chan? ch with
    | none => exact ⟨_, by simp only [exec, execTrRaw, h]; rfl, .rejected _ _ rfl⟩
    | some c => exact ⟨_, by simp only [exec, execTrRaw, h]; rfl, .answered _ _ rfl⟩
  | scA2m v => exact ⟨_, rfl, .plain _ _ _⟩
  | scM2d v => exact ⟨_, rfl, .plain _ _ _⟩
  | scA2d v => exact ⟨_, rfl, .plain _ _ _⟩
  | dacWrite cs sub v =>
    cases h : dest? cs sub with
    | none => exact ⟨_, by simp only [exec, execDacWrite, h]; rfl, .rejected _ _ rfl⟩
    | some p => exact ⟨_, by simp only [exec, execDacWrite, h], .wrote p.1 p.2 v rfl rfl⟩
  | outWrite o v =>
    cases h : chan? o with
    | none => exact ⟨_, by simp only [exec, execOutWrite, h]; rfl, .rejected _ _ rfl⟩
    | some c =>
      cases h' : routed? c s with
      | none => exact ⟨_, by simp only [exec, execOutWrite, h, h']; rfl, .rejected _ _ rfl⟩
      | some p => exact ⟨_, by simp only [exec, execOutWrite, h, h'], .wrote p.1 p.2 v rfl rfl⟩

/-- A command that ends in `t` ends there in one of these ways. -/
theorem ending_of_exec {i : Instr} {s t : State} (h : exec i s = .next t) : Ending i s t := by
  obtain ⟨t', h', hend⟩ := exec_ends i s
  cases h.symm.trans h'
  exact hend

/-! ### The ways a step can end -/

/-- All the ways a step can end: no input; a command; an illegal word; a reset between commands or
within one. -/
inductive StepEnding (s t : State) : Prop where
  | waited (hp : s.port = []) (h : t = s)
  | ran (cw arg : Word) (rest : List PortInput) (i : Instr) (hp : s.port = .command cw arg :: rest)
      (hd : decode cw arg = .ok i) (h : exec i (s.setPort rest) = .next t)
  | illegal (cw arg : Word) (rest : List PortInput) (e : Illegal)
      (hp : s.port = .command cw arg :: rest) (hd : decode cw arg = .error e)
      (h : t = rejectIllegal cw (s.setPort rest))
  | reset (rest : List PortInput) (hp : s.port = .reset :: rest) (h : t = rst (s.setPort rest))
  | cut (cw arg : Word) (k : Nat) (rest : List PortInput)
      (hp : s.port = .resetDuring cw arg k :: rest) (h : t = resetDuring cw arg k (s.setPort rest))

theorem step_ends (s : State) : ∃ t, step s = .next t ∧ StepEnding s t := by
  rcases hp : s.port with _ | ⟨x, rest⟩
  · exact ⟨s, by simp only [step, takeInput, hp], .waited hp rfl⟩
  cases x with
  | command cw arg =>
    cases hd : decode cw arg with
    | error e => exact ⟨_, by simp only [step, takeInput, takeCommand, hp, hd], .illegal _ _ _ _ hp hd rfl⟩
    | ok i =>
      obtain ⟨t, ht, -⟩ := exec_ends i (s.setPort rest)
      exact ⟨t, by simp only [step, takeInput, takeCommand, hp, hd, ht], .ran _ _ _ _ hp hd ht⟩
  | reset => exact ⟨_, by simp only [step, takeInput, hp], .reset _ hp rfl⟩
  | resetDuring cw arg k => exact ⟨_, by simp only [step, takeInput, hp], .cut _ _ _ _ hp rfl⟩

/-- A step that answers `t` ends in one of these ways. -/
theorem ending_of_step {s t : State} (h : step s = .next t) : StepEnding s t := by
  obtain ⟨t', h', hend⟩ := step_ends s
  cases h.symm.trans h'
  exact hend

end Sys2Proof.Machine
end

