-- ==== Sys2Proof/Laws/PerInstr.lean ====
section
/-! SUPPORT. What holds of every command as syntax, one lemma per constructor. -/

namespace Sys2Proof.Laws

/-- The encoding of a well-formed command is selected by exactly one row of the opcode map (R95). -/
def MatchesRow.Statement (i : Instr) : Prop :=
  i.wellFormed = true → (opcodeMap.filter fun r => r.selects (encode i).1).length = 1

theorem id_cases {ch : Nat} (h : chanEncodable ch = true) :
    ch = 0 ∨ ch = 1 ∨ ch = 2 ∨ ch = 3 ∨ ch = 4 ∨ ch = 5 ∨ ch = 6 ∨ ch = 7 := by
  simp only [chanEncodable, decide_eq_true_eq] at h
  omega

theorem index_cases {n : Nat} (h : indexEncodable n = true) : n = 0 ∨ n = 1 ∨ n = 2 ∨ n = 3 := by
  simp only [indexEncodable, decide_eq_true_eq] at h
  omega

theorem MatchesRow.sysNop : MatchesRow.Statement (.sysNop) := fun _ => rfl

theorem MatchesRow.sysCycle : MatchesRow.Statement (.sysCycle) := fun _ => rfl

theorem MatchesRow.sysStatus : MatchesRow.Statement (.sysStatus) := fun _ => rfl

theorem MatchesRow.anUpdate (b : Bank) (ch : Nat) : MatchesRow.Statement (.anUpdate b ch) := by
  intro h
  cases b <;> rcases id_cases h with rfl | rfl | rfl | rfl | rfl | rfl | rfl | rfl <;> rfl

theorem MatchesRow.anChanged (b : Bank) (ch : Nat) : MatchesRow.Statement (.anChanged b ch) := by
  intro h
  cases b <;> rcases id_cases h with rfl | rfl | rfl | rfl | rfl | rfl | rfl | rfl <;> rfl

theorem MatchesRow.anRaw (b : Bank) (ch : Nat) : MatchesRow.Statement (.anRaw b ch) := by
  intro h
  cases b <;> rcases id_cases h with rfl | rfl | rfl | rfl | rfl | rfl | rfl | rfl <;> rfl

theorem MatchesRow.anCur (b : Bank) (ch : Nat) : MatchesRow.Statement (.anCur b ch) := by
  intro h
  cases b <;> rcases id_cases h with rfl | rfl | rfl | rfl | rfl | rfl | rfl | rfl <;> rfl

theorem MatchesRow.anLast (b : Bank) (ch : Nat) : MatchesRow.Statement (.anLast b ch) := by
  intro h
  cases b <;> rcases id_cases h with rfl | rfl | rfl | rfl | rfl | rfl | rfl | rfl <;> rfl

theorem MatchesRow.trRefresh (ch : Nat) : MatchesRow.Statement (.trRefresh ch) := by
  intro h
  rcases id_cases h with rfl | rfl | rfl | rfl | rfl | rfl | rfl | rfl <;> rfl

theorem MatchesRow.trRose (ch : Nat) : MatchesRow.Statement (.trRose ch) := by
  intro h
  rcases id_cases h with rfl | rfl | rfl | rfl | rfl | rfl | rfl | rfl <;> rfl

theorem MatchesRow.trFell (ch : Nat) : MatchesRow.Statement (.trFell ch) := by
  intro h
  rcases id_cases h with rfl | rfl | rfl | rfl | rfl | rfl | rfl | rfl <;> rfl

theorem MatchesRow.trHigh (ch : Nat) : MatchesRow.Statement (.trHigh ch) := by
  intro h
  rcases id_cases h with rfl | rfl | rfl | rfl | rfl | rfl | rfl | rfl <;> rfl

theorem MatchesRow.trLow (ch : Nat) : MatchesRow.Statement (.trLow ch) := by
  intro h
  rcases id_cases h with rfl | rfl | rfl | rfl | rfl | rfl | rfl | rfl <;> rfl

theorem MatchesRow.trRaw (ch : Nat) : MatchesRow.Statement (.trRaw ch) := by
  intro h
  rcases id_cases h with rfl | rfl | rfl | rfl | rfl | rfl | rfl | rfl <;> rfl

theorem MatchesRow.scA2m (v : Int) : MatchesRow.Statement (.scA2m v) := by
  intro _
  simp only [encode]
  rfl

theorem MatchesRow.scM2d (v : Int) : MatchesRow.Statement (.scM2d v) := by
  intro _
  simp only [encode]
  rfl

theorem MatchesRow.scA2d (v : Int) : MatchesRow.Statement (.scA2d v) := by
  intro _
  simp only [encode]
  rfl

theorem MatchesRow.dacWrite (cs sub : Nat) (v : Int) :
    MatchesRow.Statement (.dacWrite cs sub v) := by
  intro h
  simp only [Instr.wellFormed, Bool.and_eq_true] at h
  rcases index_cases h.1.1 with rfl | rfl | rfl | rfl <;>
    rcases index_cases h.1.2 with rfl | rfl | rfl | rfl <;> simp only [encode] <;> rfl

theorem MatchesRow.outWrite (o : Nat) (v : Int) : MatchesRow.Statement (.outWrite o v) := by
  intro h
  simp only [Instr.wellFormed, Bool.and_eq_true] at h
  rcases id_cases h.1 with rfl | rfl | rfl | rfl | rfl | rfl | rfl | rfl <;>
    simp only [encode] <;> rfl

end Sys2Proof.Laws
end

