-- ==== Sys2Proof/Laws/Values.lean ====
section
/-! SUPPORT. What clamping, the three scale maps and the frame compute, as integer arithmetic. -/

namespace Sys2Proof.Machine

theorem clamp_eq_min_max (v : Int) {lo hi : Int} (h : lo ≤ hi) : clamp v lo hi = min (max v lo) hi := by
  unfold clamp
  split
  · omega
  · split <;> omega

theorem clamp_bounds (v : Int) {lo hi : Int} (h : lo ≤ hi) : lo ≤ clamp v lo hi ∧ clamp v lo hi ≤ hi := by
  rw [clamp_eq_min_max v h]
  omega

theorem analogToMidi_eq (v : Int) : analogToMidi v = clamp v 0 1023 / 8 :=
  Int.shiftRight_eq_div_pow _ 3

theorem midiToDac_eq (v : Int) : midiToDac v = clamp v 0 127 * 4095 / 127 := by
  have := (clamp_bounds v (by omega : (0 : Int) ≤ 127)).1
  exact Int.tdiv_eq_ediv_of_nonneg (by omega)

theorem analogToDac_eq (v : Int) : analogToDac v = clamp v 0 1023 * 4095 / 1023 := by
  have := (clamp_bounds v (by omega : (0 : Int) ≤ 1023)).1
  exact Int.tdiv_eq_ediv_of_nonneg (by omega)

theorem v12_toNat (v : Int) : (v12 v).toNat = (clamp v 0 4095).toNat := by
  have := clamp_bounds v (by omega : (0 : Int) ≤ 4095)
  rw [v12, BitVec.toNat_ofInt]
  omega

/-- The frame's three fields, as one number (R183). -/
theorem dacFrame_toNat (ctrl3 : BitVec 3) (d : SubDac) (v : Int) :
    (dacFrame ctrl3 d v).toNat = d.index * 32768 + ctrl3.toNat * 4096 + (clamp v 0 4095).toNat := by
  have := (v12 v).isLt
  have := ctrl3.isLt
  rw [dacFrame, BitVec.toNat_append, BitVec.toNat_append, ← v12_toNat,
    ← Nat.shiftLeft_add_eq_or_of_lt (by omega), ← Nat.shiftLeft_add_eq_or_of_lt (by omega)]
  cases d <;> simp [subDacBit, SubDac.index, Nat.shiftLeft_eq] <;> omega

end Sys2Proof.Machine
end

