-- ==== Sys2Proof/Tests/Slice0.lean ====
section
/-! SUPPORT. The model's own tests, and for each claim with hypotheses a witness that meets them. Expected
results are those of spec/95_test_vectors.md; a test's docstring names the row. -/

namespace Sys2Proof.Tests

open Sys2Proof.Machine Sys2Proof.Claims

/-! ## Small states -/

/-- A configuration with every OPEN parameter fixed. -/
def cfg (diag : Bool) (p : StalePolicy) : Params where
  route       := ⟨⟨0, 0⟩, ⟨0, 1⟩, ⟨1, 0⟩, ⟨1, 1⟩⟩
  dacCtrl3    := 0b011#3
  dacSckHz    := 1000000
  diagEmit    := diag
  stalePolicy := p
  analogPins  := ⟨⟨1, 2, 3, 4⟩, ⟨5, 6, 7, 8⟩⟩
  trigPins    := ⟨9, 10, 11, 12⟩
  csPins      := ⟨13, 14⟩

/-- Environment answers enough for any one command. -/
def answers : Env where
  raw      := [1023#10, 600#10]
  smooth   := [(600#10, true), (600#10, false)]
  debounce := [⟨false, true, false⟩, ⟨true, false, true⟩]
  pin      := [true, false]
  clock    := [1000#32, 1010#32]
  stale    := [true, false]
  draws    := 1

/-- A quiet block whose channels are all fresh or all stale. -/
def start (diag : Bool) (p : StalePolicy) (fresh : Bool) : State where
  cfg         := cfg diag p
  analog      := ⟨.ofFn fun _ => ⟨5#10, 6#10, true, ⟨0, []⟩, fresh⟩, .ofFn fun _ => ⟨412#10, 7#10, true, ⟨0, []⟩, fresh⟩⟩
  trigger     := .ofFn fun _ => ⟨false, true, false, ⟨0, []⟩, fresh⟩
  csN         := ⟨true, true⟩
  busOwned    := false
  busy        := false
  cfgErr      := false
  trace       := []
  endedTraces := []
  results     := []
  port        := []
  env         := answers

/-- The block of most tests: no diagnostics, draws for stale queries, fresh channels. -/
def s₀ : State := start false .draw true

/-- What is read from the state a command leaves. -/
def after {α : Type} (i : Instr) (s : State) (f : State → α) : Option α :=
  match exec i s with
  | .next t => some (f t)
  | .fault _ => none
  | .refused _ => none

/-- The result of a command. -/
def rspOf (i : Instr) (s : State) : Option Int := after i s lastResult

/-- What is read from the state a step leaves. -/
def afterStep {α : Type} (s : State) (f : State → α) : Option α :=
  match step s with
  | .next t => some (f t)
  | .fault _ => none
  | .refused _ => none

/-! ## Well-formedness: one ill-formed term for each check -/

theorem smoke_analog_id : (Instr.anUpdate .cv 8).wellFormed = false := by decide
theorem smoke_trigger_id : (Instr.trRose 8).wellFormed = false := by decide
theorem smoke_output_id : (Instr.outWrite 8 0).wellFormed = false := by decide
theorem smoke_cs : (Instr.dacWrite 4 0 0).wellFormed = false := by decide
theorem smoke_sub : (Instr.dacWrite 0 4 0).wellFormed = false := by decide
theorem smoke_arg_high : (Instr.scA2m (2 ^ 31)).wellFormed = false := by decide
theorem smoke_arg_low : (Instr.outWrite 1 (-2 ^ 31 - 1)).wellFormed = false := by decide

/-! ## Decoding: words written out field by field from R91 (section 2.1 of the vectors) -/

/-- A command word from its fields `OP`, `B`, `CH`, `CS`, `SUB`, `RES` (R91). -/
def word (op : BitVec 6) (b : BitVec 1) (ch : BitVec 3) (cs sub : BitVec 2) (res : BitVec 18) : Word :=
  op ++ b ++ ch ++ cs ++ sub ++ res

theorem test_decode_sysNop : decode (word 0b000000 0 0b000 0 0 0) 0 = .ok .sysNop := by decide
theorem test_decode_sysCycle : decode (word 0b000001 0 0b000 0 0 0) 0 = .ok .sysCycle := by decide
theorem test_decode_sysStatus : decode (word 0b000010 0 0b000 0 0 0) 0 = .ok .sysStatus := by decide
theorem test_decode_anUpdate : decode (word 0b001000 1 0b011 0 0 0) 0 = .ok (.anUpdate .knob 3) := by
  decide
theorem test_decode_anChanged : decode (word 0b001001 0 0b001 0 0 0) 0 = .ok (.anChanged .cv 1) := by
  decide
theorem test_decode_anRaw : decode (word 0b001010 1 0b100 0 0 0) 0 = .ok (.anRaw .knob 4) := by decide
theorem test_decode_anCur : decode (word 0b001011 0 0b001 0 0 0) 0 = .ok (.anCur .cv 1) := by decide
theorem test_decode_anLast : decode (word 0b001100 1 0b100 0 0 0) 0 = .ok (.anLast .knob 4) := by decide
theorem test_decode_trRefresh : decode (word 0b010000 0 0b100 0 0 0) 0 = .ok (.trRefresh 4) := by decide
theorem test_decode_trRose : decode (word 0b010001 0 0b010 0 0 0) 0 = .ok (.trRose 2) := by decide
theorem test_decode_trFell : decode (word 0b010010 0 0b001 0 0 0) 0 = .ok (.trFell 1) := by decide
theorem test_decode_trHigh : decode (word 0b010011 0 0b100 0 0 0) 0 = .ok (.trHigh 4) := by decide
theorem test_decode_trLow : decode (word 0b010100 0 0b001 0 0 0) 0 = .ok (.trLow 1) := by decide
theorem test_decode_trRaw : decode (word 0b010101 0 0b111 0 0 0) 0 = .ok (.trRaw 7) := by decide
theorem test_decode_scA2m : decode (word 0b011000 0 0b000 0 0 0) 1023 = .ok (.scA2m 1023) := by decide
theorem test_decode_scM2d : decode (word 0b011001 0 0b000 0 0 0) 127 = .ok (.scM2d 127) := by decide
theorem test_decode_scA2d : decode (word 0b011010 0 0b000 0 0 0) 0xFFFFFFFB = .ok (.scA2d (-5)) := by
  decide
theorem test_decode_dacWrite : decode (word 0b100000 0 0b000 0b10 0b01 0) 100 = .ok (.dacWrite 2 1 100) := by
  decide
theorem test_decode_outWrite : decode (word 0b100001 0 0b100 0 0 0) 5000 = .ok (.outWrite 4 5000) := by
  decide

/-- A must-be-zero field of each format (rows `0x60400000`, `0x20500000`, `0x46800000`, `0x81000000`). -/
theorem test_decode_mustBeZero :
    decode (word 0b011000 0 0b001 0 0 0) 0 = .error (.mustBeZero 0x60400000) ∧
    decode (word 0b001000 0 0b001 0b01 0 0) 0 = .error (.mustBeZero 0x20500000) ∧
    decode (word 0b010001 1 0b010 0 0 0) 0 = .error (.mustBeZero 0x46800000) ∧
    decode (word 0b100000 0 0b100 0 0 0) 0 = .error (.mustBeZero 0x81000000) := by decide

/-- A table word becomes the command port's words. -/
theorem test_decodeTableWord : decodeTableWord 32 0x22C00000 = some (.anUpdate .knob 3) ∧
    decodeTableWord 32 0x0C000000 = none := by decide

/-! ## Instructions, one step each -/

/-- S1. -/
theorem test_sysNop : rspOf .sysNop s₀ = some 0 := by decide
/-- S2: ghost bits 0. -/
theorem test_sysCycle : after .sysCycle s₀ (fun t => (t.analog.knob.c4.fresh, t.trigger.c1.fresh))
    = some (false, false) := by decide
/-- S3: 12. -/
theorem test_sysStatus : rspOf .sysStatus s₀ = some 12 := by decide
/-- S4: 13. -/
theorem test_sysStatus_cfgErr : rspOf .sysStatus { s₀ with cfgErr := true } = some 13 := by decide
/-- E1: `current[KNOB][3] = 412` before, the collaborator reports 600. -/
theorem test_anUpdate : after (.anUpdate .knob 3) s₀
    (fun t => (lastResult t, t.analog.knob.c3, t.analog.cv.c3.current))
    = some (600, ⟨600#10, 412#10, true, ⟨0, [1023#10]⟩, true⟩, 5#10) := by decide
/-- E7, with `DIAG_EMIT` true: -1 and one diagnostic, the collaborator not called. -/
theorem test_anUpdate_invalid : after (.anUpdate .knob 5) (start true .draw true)
    (fun t => (lastResult t, t.trace, t.env))
    = some (-1, [.diag (.invalidId 0x08#6 5)], answers) := by decide
/-- A4: the latch of a fresh channel. -/
theorem test_anChanged : rspOf (.anChanged .cv 2) s₀ = some 1 := by decide
/-- A8: a stale query under `STALE_POLICY = latch` returns the latch. -/
theorem test_anChanged_latch : after (.anChanged .cv 2) (start false .latch false)
    (fun t => (lastResult t, t.env.stale)) = some (1, [true, false]) := by decide
/-- A9: the raw line at 1023, `current` untouched. -/
theorem test_anRaw : after (.anRaw .knob 1) s₀ (fun t => (lastResult t, t.analog))
    = some (1023, s₀.analog) := by decide
/-- E7. -/
theorem test_anRaw_invalid : after (.anRaw .cv 5) s₀ (fun t => (lastResult t, t.env)) = some (-1, answers) := by
  decide
/-- A10's `current[CV][1] = 5`. -/
theorem test_anCur : rspOf (.anCur .cv 1) s₀ = some 5 := by decide
/-- E7. -/
theorem test_anCur_invalid : rspOf (.anCur .knob 0) s₀ = some (-1) := by decide
/-- R125: `last`, not `current`. -/
theorem test_anLast : rspOf (.anLast .knob 4) s₀ = some 7 := by decide
/-- P2 step 3: latches (0,1,0), `DebounceRefresh(2, 1000)`. -/
theorem test_trRefresh : after (.trRefresh 2) s₀ (fun t => (lastResult t, t.trigger.c2))
    = some (0, ⟨false, true, false, ⟨0, [1000#32]⟩, true⟩) := by decide
/-- T10. -/
theorem test_trRefresh_invalid : after (.trRefresh 7) s₀ (fun t => (lastResult t, t.env))
    = some (-1, answers) := by decide
/-- E6, the row "fell, not rose, LOW". -/
theorem test_trRose : rspOf (.trRose 1) s₀ = some 1 := by decide
theorem test_trFell : rspOf (.trFell 1) s₀ = some 0 := by decide
theorem test_trHigh : rspOf (.trHigh 1) s₀ = some 1 := by decide
theorem test_trLow : rspOf (.trLow 1) s₀ = some 0 := by decide
/-- P2 step 13: an invalid id answers false. -/
theorem test_trRose_invalid : rspOf (.trRose 5) s₀ = some 0 := by decide
/-- P2 step 1: a stale query draws. -/
theorem test_trHigh_stale : after (.trHigh 2) (start false .draw false)
    (fun t => (lastResult t, t.env.stale)) = some (1, [false]) := by decide
/-- T6: the pin HIGH, not inverted. -/
theorem test_trRaw : rspOf (.trRaw 2) s₀ = some 1 := by decide
/-- E7. -/
theorem test_trRaw_invalid : rspOf (.trRaw 5) s₀ = some (-1) := by decide
/-- R160's example; section 2.4. -/
theorem test_scA2m : rspOf (.scA2m 1000) s₀ = some 125 := by decide
theorem test_scA2m_low : rspOf (.scA2m (-2147483648)) s₀ = some 0 := by decide
/-- R161's example; section 2.4, the input that tells truncation from rounding. -/
theorem test_scM2d : rspOf (.scM2d 64) s₀ = some 2063 := by decide
theorem test_scM2d_truncates : rspOf (.scM2d 3) s₀ = some 96 := by decide
/-- R162's example; section 2.4, the input that tells truncation from rounding. -/
theorem test_scA2d : rspOf (.scA2d 512) s₀ = some 2049 := by decide
theorem test_scA2d_truncates : rspOf (.scA2d 171) s₀ = some 684 := by decide
/-- E4. -/
theorem test_dacWrite : after (.dacWrite 0 0 0x0ABC) s₀ (fun t => (lastResult t, t.trace, t.csN, t.busy))
    = some (0, [.csAssert .cs0, .claim 1000000 .msbFirst .cpol0Cpha0, .xfer 0x3A#8, .xfer 0xBC#8, .release,
        .csDeassert .cs0], ⟨true, true⟩, false) := by decide
/-- D6. -/
theorem test_dacWrite_badDest : after (.dacWrite 0 3 100) (start true .draw true)
    (fun t => (lastResult t, t.trace)) = some (-2, [.diag (.badDest 0x20#6 [0, 3])]) := by decide
/-- R196's example: `out.write 4, 5000` clamps. -/
theorem test_outWrite : after (.outWrite 4 5000) s₀ (fun t => (lastResult t, t.trace))
    = some (0, [.csAssert .cs1, .claim 1000000 .msbFirst .cpol0Cpha0, .xfer 0xBF#8, .xfer 0xFF#8, .release,
        .csDeassert .cs1]) := by decide
/-- D12 and D13: the id is checked before `cfg_err`. -/
theorem test_outWrite_errors : rspOf (.outWrite 1 1) { s₀ with cfgErr := true } = some (-2) ∧
    rspOf (.outWrite 0 1) { s₀ with cfgErr := true } = some (-1) := by decide

/-! ## Words, reset, routing, the observer -/

/-- P3 step 9: an illegal word changes nothing and answers -3. -/
theorem test_illegal_word :
    afterStep { s₀ with port := [.command 0x20500000 0] } (fun t => (lastResult t, t.trace, t.env))
      = some (-3, [], answers) := by decide

/-- `rst` after `Xfer(0x30)` of `out.write 1, 7` (section 2.6). -/
theorem test_reset_during_write :
    afterStep { s₀ with port := [.resetDuring 0x84400000 7 4] }
        (fun t => (t.endedTraces, t.results, t.csN, t.busOwned, t.busy))
      = some ([[.csAssert .cs0, .claim 1000000 .msbFirst .cpol0Cpha0, .xfer 0x30#8, .release, .csDeassert .cs0]],
          [], ⟨true, true⟩, false, false) := by decide

/-- Section 2.8. -/
theorem test_routeOk : routeOk ⟨⟨1, 1⟩, ⟨1, 0⟩, ⟨0, 1⟩, ⟨0, 0⟩⟩ = true ∧
    routeOk ⟨⟨0, 0⟩, ⟨0, 0⟩, ⟨1, 0⟩, ⟨1, 1⟩⟩ = false ∧
    routeOk ⟨⟨0, 0⟩, ⟨0, 1⟩, ⟨1, 0⟩, ⟨2, 1⟩⟩ = false ∧
    routeOk ⟨⟨0, 0⟩, ⟨0, 1⟩, ⟨1, 0⟩, ⟨1, 2⟩⟩ = false := by decide

/-- Section 2.5: the clamp, the nibble and the sub-DAC bit. -/
theorem test_dacFrame : dacFrame 0b011 .chB 3202 = 0xBC82 ∧ dacFrame 0b011 .chA 5000 = 0x3FFF ∧
    dacFrame 0b011 .chB (-1) = 0xB000 ∧ dacFrame 0b011 .chA 4096 = 0x3FFF := by decide

/-- An observer with both chips unselected. -/
def observer : Observer := ⟨⟨⟨false, [], 1#12, 2#12⟩, ⟨false, [], 3#12, 4#12⟩⟩, 0⟩

/-- D8: `dac_reg[0][1]` becomes 2748 and the others stay. -/
theorem test_observer :
    after (.outWrite 2 0x0ABC) s₀ (fun t =>
      let w := observer.watch t.trace
      (w.dacReg .cs0 .chA, w.dacReg .cs0 .chB, w.dacReg .cs1 .chA, w.dacReg .cs1 .chB))
      = some (1#12, 2748#12, 3#12, 4#12) := by decide

/-- The spelling of R100's examples. -/
theorem test_asmText : asmText (.anUpdate .knob 3) = "an.update knob, 3" ∧
    asmText (.dacWrite 0 1 4095) = "dac.write 0, 1, 4095" := by decide

/-! ## Witnesses: concrete states and operands that meet the hypotheses of the claims -/

/-- The ids at the edges: 0, 5 and 7 are invalid, 1 and 4 are valid. -/
theorem witness_ids : ¬ (1 ≤ 0 ∧ 0 ≤ 4) ∧ ¬ (1 ≤ 5 ∧ 5 ≤ 4) ∧ ¬ (1 ≤ 7 ∧ 7 ≤ 4) ∧ 7 ≤ 7 ∧
    Chan.id .c1 = 1 ∧ Chan.id .c4 = 4 := by decide

theorem witness_DecodeOfEncodeIsIdentity : (Instr.outWrite 7 (-2 ^ 31)).wellFormed = true ∧
    (Instr.dacWrite 3 3 (2 ^ 31 - 1)).wellFormed = true ∧ (Instr.anUpdate .knob 7).wellFormed = true := by
  decide

/-- A command that uses `ARG` and one that does not. -/
theorem witness_EncodeOfDecodeIsIdentity :
    decode 0x803C0000 0x80000000 = .ok (.dacWrite 3 3 (-2 ^ 31)) ∧ (Instr.dacWrite 3 3 0).usesArg = true ∧
    decode 0x23C00000 5 = .ok (.anUpdate .knob 7) ∧ (Instr.anUpdate .knob 7).usesArg = false := by decide

theorem illegal_reserved : IllegalWord 0x0C000000#32 := .inl (by decide)
theorem illegal_mustBeZero : IllegalWord 0x20500000#32 := .inr ⟨(0x08, .A), by decide, by decide, by decide⟩

/-- Both kinds of illegal word on the port, and the first and last reserved `OP`. -/
theorem witness_IllegalWordIsRejected :
    ({ s₀ with port := [.command 0x0C000000 0] } : State).port = .command 0x0C000000 0 :: [] ∧
    IllegalWord 0x0C000000#32 ∧ IllegalWord 0x20500000#32 ∧
    opOf 0x0C000000#32 ∈ reservedOps ∧ opOf 0xFC000000#32 ∈ reservedOps :=
  ⟨rfl, illegal_reserved, illegal_mustBeZero, by decide, by decide⟩

/-- A block with this on its ports. -/
def withPort (p : List PortInput) : State := { s₀ with port := p }

theorem witness_StepTakesNextInput :
    (withPort [.command 0x22C00000 0]).port = .command 0x22C00000 0 :: [] ∧
    decode 0x22C00000 0 = .ok (.anUpdate .knob 3) ∧ s₀.port = [] ∧
    (withPort [.reset]).port = .reset :: [] ∧ decodeTableWord 32 0x85000000 = some (.outWrite 4 0) := by
  decide

theorem witness_NothingTraps : s₀.busy = false := rfl

theorem witness_AnUpdateShiftsHistory : s₀.env.raw = 1023#10 :: [600#10] ∧
    s₀.env.smooth = (600#10, true) :: [(600#10, false)] := by decide

/-- A fresh query, a stale one answered by the latch, and a stale one answered by a draw. -/
theorem witness_AnswersQuery : (s₀.channel .cv .c1).fresh = true ∧ (s₀.trig .c4).fresh = true ∧
    ((start false .latch false).channel .knob .c4).fresh = false ∧
    ((start false .latch false).trig .c1).fresh = false ∧
    (start false .latch false).cfg.stalePolicy = .latch ∧
    ((start false .draw false).channel .knob .c4).fresh = false ∧
    ((start false .draw false).trig .c1).fresh = false ∧
    (start false .draw false).cfg.stalePolicy = .draw ∧
    (start false .draw false).env.stale = true :: [false] := by decide

theorem witness_AnalogReadsChangeNothing : s₀.env.raw = 1023#10 :: [600#10] := by decide

theorem witness_InvalidAnalogIdIsNoOp : ¬ (1 ≤ 5 ∧ 5 ≤ 4) ∧ Instr.anChanged .cv 5 ∈ analogCommands .cv 5 ∧
    Instr.anUpdate .cv 5 ∈ analogCommands .cv 5 := by decide

/-- Two states that differ elsewhere and agree on the channel, the parameters and the environment. -/
theorem witness_AnalogCommandsAreChannelLocal :
    Instr.anUpdate .cv 1 ∈ analogCommands .cv (Chan.id .c1) ∧ Bank.cv ≠ .knob ∧
    (withPort [.reset]).channel .cv .c1 = s₀.channel .cv .c1 ∧ (withPort [.reset]).cfg = s₀.cfg ∧
    (withPort [.reset]).env = s₀.env ∧ withPort [.reset] ≠ s₀ := by decide

theorem witness_BanksBehaveAlike : s₀.env.raw ≠ [] ∧ s₀.env.smooth ≠ [] ∧
    (Instr.anUpdate .cv 1, Instr.anUpdate .knob 1) ∈
      (analogCommands .cv 1).zip (analogCommands (otherBank .cv) 1) ∧
    ∃ t, exec (.anUpdate .cv 1) s₀ = .next t := ⟨by decide, by decide, by decide, _, rfl⟩

/-- Two updates that both report 600, with a read between. -/
theorem witness_RepeatedUpdateFillsBothRegisters : ∃ s₁ s₂ s₃,
    exec (.anUpdate .knob (Chan.id .c3)) s₀ = .next s₁ ∧ s₁.results = s₀.results ++ [rspSample 600#10] ∧
    (∀ i ∈ [Instr.anLast .knob 3], i ≠ .anUpdate .knob (Chan.id .c3)) ∧
    execAll [.anLast .knob 3] s₁ = .next s₂ ∧
    exec (.anUpdate .knob (Chan.id .c3)) s₂ = .next s₃ ∧ s₃.results = s₂.results ++ [rspSample 600#10] :=
  ⟨_, _, _, rfl, by decide, by decide, rfl, rfl, by decide⟩

/-- The update of the same id in the other bank. -/
theorem witness_OnlyUpdateWritesAnalogRegisters :
    (∃ t, exec (.anUpdate .knob 3) s₀ = .next t) ∧ Instr.anUpdate .knob 3 ≠ .anUpdate .cv (Chan.id .c3) :=
  ⟨⟨_, rfl⟩, by decide⟩

theorem witness_TrRefreshLatchesReport : s₀.env.clock = 1000#32 :: [1010#32] ∧
    s₀.env.debounce = ⟨false, true, false⟩ :: [⟨true, false, true⟩] := by decide

theorem witness_TrRawReturnsPinLevel : s₀.env.pin = true :: [false] := by decide

theorem witness_InvalidTriggerIdIsNoOp : ¬ (1 ≤ 0 ∧ 0 ≤ 4) ∧ Instr.trRaw 0 ∈ triggerCommands 0 ∧
    Instr.trHigh 0 ∈ triggerCommands 0 := by decide

/-- Two stale queries: of one trigger channel, and of a trigger and an analog channel. -/
theorem witness_LevelsComplementaryAndEdgesSwapped : (s₀.trig .c2).fresh = true ∧
    s₀.env.debounce = ⟨false, true, false⟩ :: [⟨true, false, true⟩] ∧
    (∃ t, exec (.trRefresh (Chan.id .c2)) s₀ = .next t) ∧
    staleQuery (.trHigh 2) (start false .draw false) = true ∧
    staleQuery (.trLow 2) (start false .draw false) = true ∧
    staleQuery (.anChanged .knob 4) (start false .draw false) = true ∧
    (start false .draw false).cfg.stalePolicy = .draw ∧
    (start false .draw false).env.stale = true :: false :: [] :=
  ⟨by decide, by decide, ⟨_, rfl⟩, by decide, by decide, by decide, by decide, by decide⟩

theorem witness_TriggerCommandsAreChannelLocal : Instr.trRefresh 4 ∈ triggerCommands (Chan.id .c4) ∧
    Chan.c3 ≠ .c4 ∧ (withPort [.reset]).trig .c4 = s₀.trig .c4 ∧ (withPort [.reset]).cfg = s₀.cfg ∧
    (withPort [.reset]).env = s₀.env ∧ withPort [.reset] ≠ s₀ := by decide

theorem witness_OnlyRefreshWritesTriggerLatches :
    (∃ t, exec (.trRefresh 4) s₀ = .next t) ∧ Instr.trRefresh 4 ≠ .trRefresh (Chan.id .c1) :=
  ⟨⟨_, rfl⟩, by decide⟩

/-- A block whose channels are all stale. -/
def stale (p : StalePolicy) : State := start false p false

theorem witness_FreshUntilNextCycle :
    (∃ t u, exec (.anUpdate .cv (Chan.id .c4)) (stale .draw) = .next t ∧
      execAll [.anUpdate .knob 1, .trRaw 1] t = .next u) ∧
    (∃ t u, exec (.trRefresh (Chan.id .c1)) (stale .draw) = .next t ∧
      execAll [.trRefresh 2, .sysStatus] t = .next u) ∧
    Instr.sysCycle ∉ [Instr.anUpdate .knob 1, .trRaw 1] ∧ Instr.sysCycle ∉ [Instr.trRefresh 2, .sysStatus] :=
  ⟨⟨_, _, rfl, rfl⟩, ⟨_, _, rfl, rfl⟩, by decide, by decide⟩

theorem witness_StaleQueryAdmitsBothAnswers :
    staleQuery (.anChanged .knob 4) (stale .draw) = true ∧ (stale .draw).cfg.stalePolicy = .draw ∧
    staleQuery (.trLow 1) (stale .latch) = true ∧ (stale .latch).cfg.stalePolicy = .latch := by decide

/-- The last inputs of both step ranges. -/
theorem witness_ScaleCommandsComputeTheirMaps :
    ((0 : Int) ≤ 126 ∧ (126 : Int) < 127 ∧ ∃ t u, exec (.scM2d 126) s₀ = .next t ∧
      exec (.scM2d (126 + 1)) s₀ = .next u) ∧
    ((0 : Int) ≤ 1022 ∧ (1022 : Int) < 1023 ∧ ∃ t u, exec (.scA2d 1022) s₀ = .next t ∧
      exec (.scA2d (1022 + 1)) s₀ = .next u) :=
  ⟨⟨by decide, by decide, _, _, rfl, rfl⟩, by decide, by decide, _, _, rfl, rfl⟩

theorem witness_ScaleMapsAreMonotonic : (-1 : Int) ≤ 1024 ∧ ∃ a a' m m' d d',
    exec (.scA2m (-1)) s₀ = .next a ∧ exec (.scA2m 1024) s₀ = .next a' ∧
    exec (.scM2d (-1)) s₀ = .next m ∧ exec (.scM2d 1024) s₀ = .next m' ∧
    exec (.scA2d (-1)) s₀ = .next d ∧ exec (.scA2d 1024) s₀ = .next d' :=
  ⟨by decide, _, _, _, _, _, _, rfl, rfl, rfl, rfl, rfl, rfl⟩

theorem witness_MidiDetourIsLossy : (0 : Int) ≤ 1016 ∧ (1016 : Int) ≤ 1023 ∧ ∃ a m d,
    exec (.scA2m 1016) s₀ = .next a ∧ exec (.scM2d (lastResult a)) a = .next m ∧
    exec (.scA2d 1016) m = .next d :=
  ⟨by decide, by decide, _, _, _, rfl, rfl, rfl⟩

/-- Destinations at the edges of the fields and of the valid set, on a quiet block. -/
theorem witness_DacWriteSendsOneFrame : 3 ≤ 3 ∧ ¬ (2 ≤ 1 ∧ 0 ≤ 1) ∧ ¬ (1 ≤ 1 ∧ 2 ≤ 1) ∧ Quiet s₀ :=
  ⟨by decide, by decide, by decide, ⟨rfl, rfl, rfl⟩⟩

theorem witness_OutWriteRoutesItsFrame : Quiet s₀ ∧ s₀.cfgErr = false ∧
    s₀.cfg.route.get .c4 = ⟨ChipSel.index .cs1, SubDac.index .chB⟩ ∧
    Quiet { s₀ with cfgErr := true } ∧ ({ s₀ with cfgErr := true } : State).cfgErr = true :=
  ⟨⟨rfl, rfl, rfl⟩, rfl, rfl, ⟨rfl, rfl, rfl⟩, rfl⟩

/-- `out.write 1, 7` asked for while a write runs. -/
theorem witness_BusyWriteHolds :
    ({ withPort [.command 0x84400000 7] with busy := true } : State).port = .command 0x84400000 7 :: [] ∧
    decode 0x84400000 7 = .ok (.outWrite 1 7) ∧
    dacRequest? (.outWrite 1 7) { withPort [.command 0x84400000 7] with busy := true } ≠ none := by decide

theorem witness_LinesDuringDacWrite : Quiet s₀ ∧ ChipSel.cs0 ≠ .cs1 := ⟨⟨rfl, rfl, rfl⟩, by decide⟩

theorem witness_OnlyDacWritesTouchTheBus :
    (∃ t, exec (.trRefresh 0) (start true .draw true) = .next t) ∧ writesDac (.trRefresh 0) = false :=
  ⟨⟨_, rfl⟩, rfl⟩

/-- A block that has sent a frame, whose earlier run a reset ended within one, and that has a write and a
write cut by reset still to do. -/
def used : State :=
  { s₀ with
    trace       := sixEvents 1000000 .cs1 0x30 0x02 ++ [.diag (.illegal 1)]
    endedTraces := [[.csAssert .cs0, .claim 1000000 .msbFirst .cpol0Cpha0, .xfer 0x30, .release, .csDeassert .cs0]]
    port        := [.command 0x84400000 7, .resetDuring 0x84400000 7 4] }

theorem inv_used : Machine.Inv used where
  quiet  := ⟨rfl, rfl, rfl⟩
  cfgErr := by decide
  trace  := rfl
  ended  := by
    intro t ht
    rw [List.mem_singleton.mp ht]
    exact ⟨[.csAssert .cs0, .claim 1000000 .msbFirst .cpol0Cpha0, .xfer 0x30], .claimed .cs0 1, rfl, rfl⟩

theorem witness_ObserverSeesClampedValue : Machine.Inv used ∧ routeOk used.cfg.route = true ∧
    ∀ c, (observer.chips.get c).selected = false :=
  ⟨inv_used, by decide, fun c => by cases c <;> rfl⟩

/-- A table that passes and one that fails. -/
theorem witness_RouteValidationIsBijection : routeOk (cfg false .draw).route = true ∧
    routeOk ⟨⟨0, 0⟩, ⟨0, 0⟩, ⟨1, 0⟩, ⟨1, 1⟩⟩ = false ∧ 1 ≤ 1 := by decide

theorem witness_SysNopDoesNothing : opOf 1#32 = 0#6 ∧ (1#32 : Word) ≠ 0#32 := by decide

theorem witness_SysStatusReadsItsBits : Quiet s₀ ∧ Quiet { s₀ with cfgErr := true } :=
  ⟨⟨rfl, rfl, rfl⟩, ⟨rfl, rfl, rfl⟩⟩

/-- A command with each error, and one with none. -/
theorem witness_NegativeResultMeansError : Machine.Inv used ∧ errorOf (.anRaw .cv 5) used = some (-1) ∧
    errorOf (.dacWrite 2 0 1) used = some (-2) ∧ errorOf (.scA2d 5000) used = none :=
  ⟨inv_used, by decide, by decide, by decide⟩

theorem witness_ErrorHasNoOtherEffect :
    (∃ t, exec (.dacWrite 2 0 1) (start true .draw true) = .next t ∧
      t.results = (start true .draw true).results ++ [rsp (-2)] ∧ (rsp (-2)).toInt < 0) ∧
    ¬ (1 ≤ 5 ∧ 5 ≤ 4) ∧ Instr.trLow 5 ∈ booleanQueries .cv 5 ∧
    (withPort [.command 0x0C000000 0, .command 0x0C000000 0]).port
      = .command 0x0C000000 0 :: .command 0x0C000000 0 :: [] ∧ IllegalWord 0x0C000000#32 :=
  ⟨⟨_, rfl, rfl, by decide⟩, by decide, by decide, rfl, illegal_reserved⟩

/-- A rejected command and a write. -/
theorem witness_DiagnosticsChangeNothingElse :
    (∃ t, exec (.dacWrite 2 0 1) (start true .draw true) = .next t) ∧
    ∃ t, exec (.dacWrite 1 0 1) (start true .draw true) = .next t := ⟨⟨_, rfl⟩, _, rfl⟩

theorem witness_RstGivesResetValues : (withPort [.reset]).port = .reset :: [] ∧ Quiet (withPort [.reset]) :=
  ⟨rfl, ⟨rfl, rfl, rfl⟩⟩

/-- The reset of section 2.6: `out.write 1, 7`, cut after `Xfer(0x30)`. -/
theorem witness_ResetAbandonsDacWrite :
    (withPort [.resetDuring 0x84400000 7 4]).port = .resetDuring 0x84400000 7 4 :: [] ∧
    decode 0x84400000 7 = .ok (.outWrite 1 7) ∧
    dacRequest? (.outWrite 1 7) (withPort [.resetDuring 0x84400000 7 4]) = some (.cs0, .chA, 7) ∧
    Quiet (withPort [.resetDuring 0x84400000 7 4]) :=
  ⟨rfl, by decide, by decide, ⟨rfl, rfl, rfl⟩⟩

/-- A command of another kind, a rejected write, a write that waits, and an illegal word. -/
theorem witness_ResetDuringOtherCommandsUndoesThem :
    (withPort [.resetDuring 0x22C00000 0 4]).port = .resetDuring 0x22C00000 0 4 :: [] ∧
    decode 0x22C00000 0 = .ok (.anUpdate .knob 3) ∧ writesDac (.anUpdate .knob 3) = false ∧
    decode 0x80300000 7 = .ok (.dacWrite 3 0 7) ∧ errorOf (.dacWrite 3 0 7) s₀ ≠ none ∧
    decode 0x84400000 7 = .ok (.outWrite 1 7) ∧ ({ s₀ with busy := true } : State).busy = true ∧
    IllegalWord 0x20500000#32 ∧ Quiet (withPort [.resetDuring 0x22C00000 0 4]) :=
  ⟨rfl, by decide, rfl, by decide, by decide, by decide, rfl, illegal_mustBeZero, rfl, rfl, rfl⟩

/-- The first reset and a later one; the other bank is updated first, and another trigger channel refreshed. -/
theorem witness_AfterResetQueriesAreStale : IsReset State.reset 0 ∧ IsReset (rst s₀) 1 ∧
    Instr.anUpdate .cv (Chan.id .c1) ∉ [Instr.anUpdate .knob 1] ∧
    (∃ t, execAll [.anUpdate .knob 1] State.reset = .next t) ∧
    Instr.trRefresh (Chan.id .c4) ∉ [Instr.trRefresh 1] ∧
    ∃ t, execAll [.trRefresh 1] (rst s₀) = .next t :=
  ⟨.inl ⟨rfl, rfl⟩, .inr ⟨s₀, rfl, rfl⟩, by decide, ⟨_, rfl⟩, by decide, _, rfl⟩

theorem witness_StepKeepsInvariant : Machine.Inv used ∧ ∃ t, step used = .next t := ⟨inv_used, _, rfl⟩

/-- A run of two steps: a write, and a write cut by reset. -/
theorem witness_ChipSelectsNeverLowTogether :
    Machine.Inv used ∧ ∃ t, Host.Core.run Sys2Proof.core 2 used = .next t := ⟨inv_used, _, rfl⟩

/-- A step that runs a command, and steps that reset between commands and within one. -/
theorem witness_ConfigurationIsFixed :
    ((∃ t, step (withPort [.command 0x84400000 7]) = .next t) ∧
      ¬ ResetNext (withPort [.command 0x84400000 7])) ∧
    (∃ t, step (withPort [.reset]) = .next t) ∧ ResetNext (withPort [.reset]) := by
  refine ⟨⟨⟨_, rfl⟩, ?_⟩, ⟨_, rfl⟩, .inl ⟨_, rfl⟩⟩
  rintro (⟨_, h⟩ | ⟨_, _, _, _, h⟩) <;> cases h

theorem witness_OutputsOnlyGrow :
    ((∃ t, step (withPort [.command 0x0C000000 0]) = .next t) ∧
      ¬ ResetNext (withPort [.command 0x0C000000 0])) ∧
    (∃ t, step (withPort [.resetDuring 0x84400000 7 4]) = .next t) ∧
    ResetNext (withPort [.resetDuring 0x84400000 7 4]) := by
  refine ⟨⟨⟨_, rfl⟩, ?_⟩, ⟨_, rfl⟩, .inr ⟨_, _, _, _, rfl⟩⟩
  rintro (⟨_, h⟩ | ⟨_, _, _, _, h⟩) <;> cases h

theorem witness_PseudoCommandsExpand : Bank.knob ≠ .cv := by decide

end Sys2Proof.Tests
end

section
/-! SUPPORT. The step and the scope of reset (family 00_scope): one equation per input of a step, the
words no row of the opcode map selects, the commands that make a DAC write, and what reset while a command
runs leaves undone. -/

namespace Sys2Proof.Claims

open Sys2Proof.Machine

/-! ### Illegal words -/

/-- Every format fixes all of `OP` (R92). -/
theorem opOf_mask (f : Format) : opOf f.mask = BitVec.allOnes 6 := by cases f <;> rfl

/-- Every format fixes its must-be-zero fields (R92). -/
theorem mask_and_mustBeZero (f : Format) : f.mask &&& mustBeZero f = mustBeZero f := by
  cases f <;> rfl

/-- The model's rows are rows of the opcode table, and their match is zero where the format must be (R95). -/
theorem row_mem_opcodes : ∀ r ∈ opcodeMap,
    (opOf r.pattern, r.format) ∈ opcodes ∧ r.pattern &&& mustBeZero r.format = 0#32 := by decide

/-- An `OP` has one format (R95). -/
theorem format_unique : ∀ p ∈ opcodes, ∀ q ∈ opcodes, p.1 = q.1 → p.2 = q.2 := by decide

theorem opOf_of_selects {r : Row} {cw : Word} (h : r.selects cw = true) : opOf cw = opOf r.pattern := by
  have hmatch : cw &&& r.format.mask = r.pattern := eq_of_beq h
  calc opOf cw = opOf cw &&& opOf r.format.mask := by rw [opOf_mask, BitVec.and_allOnes]
    _ = opOf r.pattern := by rw [← hmatch]; exact BitVec.extractLsb'_and.symm

theorem mustBeZero_of_selects {r : Row} {cw : Word} (hr : r ∈ opcodeMap) (h : r.selects cw = true) :
    cw &&& mustBeZero r.format = 0#32 := by
  have hmatch : cw &&& r.format.mask = r.pattern := eq_of_beq h
  calc cw &&& mustBeZero r.format = cw &&& r.format.mask &&& mustBeZero r.format := by
        rw [BitVec.and_assoc, mask_and_mustBeZero]
    _ = 0#32 := by rw [hmatch, (row_mem_opcodes r hr).2]

/-- A word that a row selects is not illegal. -/
theorem not_illegalWord_of_selects {r : Row} {cw : Word} (hr : r ∈ opcodeMap)
    (h : r.selects cw = true) : ¬ IllegalWord cw := by
  have hmem := (row_mem_opcodes r hr).1
  rintro (hreserved | ⟨p, hp, hop, hne⟩)
  · exact hreserved _ hmem (opOf_of_selects h).symm
  · have hformat : p.2 = r.format := format_unique p hp _ hmem (hop.trans (opOf_of_selects h))
    exact hne (hformat ▸ mustBeZero_of_selects hr h)

/-- An illegal word decodes to no command (R97, R99). -/
theorem decode_of_illegalWord {cw : Word} (arg : Word) (h : IllegalWord cw) :
    ∃ e, decode cw arg = .error e := by
  have hnone : (opcodeMap.find? fun r => r.selects cw) = none :=
    List.find?_eq_none.mpr fun r hr hsel => not_illegalWord_of_selects hr hsel h
  exact ⟨_, by rw [decode, hnone]⟩

end Sys2Proof.Claims

namespace Sys2Proof.Machine

open Sys2Proof.Claims

/-! ### One equation per input of a step -/

theorem step_waits {s : State} (hp : s.port = []) : step s = .next s := by
  simp only [step, takeInput, hp]

theorem step_command {s : State} {cw arg : Word} {rest : List PortInput} {i : Instr}
    (hp : s.port = .command cw arg :: rest) (hd : decode cw arg = .ok i) :
    step s = exec i (s.setPort rest) := by
  simp only [step, takeInput, takeCommand, hp, hd]

theorem step_reset {s : State} {rest : List PortInput} (hp : s.port = .reset :: rest) :
    step s = .next (rst (s.setPort rest)) := by
  simp only [step, takeInput, hp]

theorem step_resetDuring {s : State} {cw arg : Word} {k : Nat} {rest : List PortInput}
    (hp : s.port = .resetDuring cw arg k :: rest) :
    step s = .next (resetDuring cw arg k (s.setPort rest)) := by
  simp only [step, takeInput, hp]

/-- A table word stands for the command its two words decode to. -/
theorem decode_of_decodeTableWord {nbits w : Nat} {i : Instr} (h : decodeTableWord nbits w = some i) :
    decode (tableCw nbits w) (tableArg nbits w) = .ok i := by
  unfold decodeTableWord at h
  split at h
  · rw [‹decode _ _ = _›, Option.some.inj h]
  · cases h

/-- A command put first on the port is the one that runs, and the port is as it was. -/
theorem step_withFetchWord {s : State} {nbits w : Nat} {i : Instr}
    (h : decodeTableWord nbits w = some i) : step (s.withFetchWord nbits w) = exec i s :=
  step_command rfl (decode_of_decodeTableWord h)

/-! ### Commands that make a DAC write -/

theorem writesDac_of_dacRequest? {i : Instr} {s : State} {p : ChipSel × SubDac × Int}
    (h : dacRequest? i s = some p) : writesDac i = true := by
  cases i with
  | dacWrite | outWrite => rfl
  | _ => cases h

/-- A command that makes a DAC write has no error (R195, R196, R197). -/
theorem errorOf_of_dacRequest? {i : Instr} {s : State} {p : ChipSel × SubDac × Int}
    (h : dacRequest? i s = some p) : errorOf i s = none := by
  cases i with
  | dacWrite cs sub v =>
    have hdest : dest? cs sub ≠ none := by
      intro hnone
      simp [dacRequest?, hnone] at h
    rw [Ne, dest?_eq_none] at hdest
    exact if_pos (by omega)
  | outWrite o v =>
    cases hc : chan? o with
    | none => simp [dacRequest?, hc] at h
    | some c =>
      have hid : 1 ≤ o ∧ o ≤ 4 := by
        by_contra hbad
        simp [chan?_eq_none.mpr hbad] at hc
      cases he : s.cfgErr with
      | true => simp [dacRequest?, hc, routed?, he] at h
      | false => simp [errorOf, hid, he]
  | _ => cases h

/-- Nothing of a command is done before its end if it writes to no DAC, is rejected, or waits for the
guard (R13, R193). -/
theorem cutWrite_eq_self {i : Instr} (k : Nat) {s : State}
    (h : writesDac i = false ∨ errorOf i s ≠ none ∨ s.busy = true) : cutWrite i k s = s := by
  cases hreq : dacRequest? i s with
  | none => simp only [cutWrite, hreq]
  | some p =>
    have hbusy : s.busy = true := by
      simpa [writesDac_of_dacRequest? hreq, errorOf_of_dacRequest? hreq] using h
    simp only [cutWrite, hreq, hbusy, if_true]

/-! ### Reset while a command runs -/

/-- Reset while no DAC write is being made is reset between commands (R274; log 8). -/
theorem resetDuring_eq_rst {cw arg : Word} (k : Nat) {s : State}
    (h : IllegalWord cw ∨ ∃ i, decode cw arg = .ok i ∧
      (writesDac i = false ∨ errorOf i s ≠ none ∨ s.busy = true)) :
    resetDuring cw arg k s = rst s := by
  rcases h with hill | ⟨i, hd, hw⟩
  · obtain ⟨e, hd⟩ := decode_of_illegalWord arg hill
    simp only [resetDuring, hd]
  · simp only [resetDuring, hd, cutWrite_eq_self k hw]

/-- A quiet block has no write to abandon. -/
theorem abandonEvents_of_quiet {s : State} (h : Quiet s) : abandonEvents s = [] := by
  obtain ⟨hcs, hbus, -⟩ := h
  simp [abandonEvents, hcs, hbus]

/-! ### The statements -/

/-- Settles O47: no step of a DAC write is done when `rst` comes, so the cut state is the state itself. -/
theorem resetDuringOtherCommandsUndoesThem : Obligations.ResetDuringOtherCommandsUndoesThem := by
  intro s cw arg k rest hp hundone
  have hstep : step s = .next (rst (s.setPort rest)) := by
    rw [step_resetDuring hp]
    exact congrArg _ (resetDuring_eq_rst k hundone)
  have hreset : step { s with port := .reset :: rest } = .next (rst (s.setPort rest)) := step_reset rfl
  refine ⟨hstep.trans hreset.symm, _, hstep, rfl, rfl, fun hq => ?_⟩
  have hquiet : Quiet (s.setPort rest) := hq
  simp [abandonEvents_of_quiet hquiet]

/-- Settles O6, one equation of the step per kind of input. -/
theorem stepTakesNextInput : Obligations.StepTakesNextInput :=
  ⟨fun _ _ _ _ _ => step_command, fun _ => step_waits, fun _ _ => step_reset,
    fun _ _ _ _ => step_withFetchWord⟩

end Sys2Proof.Machine
end

section
/-! SUPPORT. The state of the block (family 10_state): what a command leaves of a channel and of everything
outside the channels, where a DAC write stands in its bracket, the routing table as a bijection, and what
every step keeps. -/

namespace Sys2Proof

/-! ### The routing table (R31) -/

/-- The four channels, or the four logical outputs, in the order of their ids (R15). -/
def Chan.all : List Chan := [.c1, .c2, .c3, .c4]

theorem Chan.mem_all (c : Chan) : c ∈ Chan.all := by cases c <;> decide

theorem Chan.nodup_all : Chan.all.Nodup := by decide

/-- The four destinations (R17, R182). -/
def destinations : List Dest := [⟨0, 0⟩, ⟨0, 1⟩, ⟨1, 0⟩, ⟨1, 1⟩]

theorem mem_destinations {d : Dest} : d ∈ destinations ↔ d.cs ≤ 1 ∧ d.sub ≤ 1 := by
  obtain ⟨cs, sub⟩ := d
  simp only [destinations, List.mem_cons, List.not_mem_nil, or_false, Dest.mk.injEq]
  omega

theorem Dest.inRange_iff {d : Dest} : d.inRange = true ↔ d.cs ≤ 1 ∧ d.sub ≤ 1 := by
  rw [Dest.inRange, Option.isSome_iff_ne_none, Ne, dest?_eq_none]
  omega

/-- The entries of a table are distinct when no two outputs share one. -/
theorem nodup_map_get {α : Type} {r : Four α} :
    (Chan.all.map r.get).Nodup ↔ ∀ o o', r.get o = r.get o' → o = o' := by
  rw [List.nodup_map_iff_inj_on Chan.nodup_all]
  exact ⟨fun h o o' => h o o.mem_all o' o'.mem_all, fun h o _ o' _ => h o o'⟩

/-- What `ROUTE_OK` checks, by output (R31). -/
theorem routeOk_iff {r : Four Dest} : routeOk r = true ↔
    (∀ o, (r.get o).cs ≤ 1 ∧ (r.get o).sub ≤ 1) ∧ (∀ o o', r.get o = r.get o' → o = o') ∧
    (∃ o, (r.get o).cs = 0) ∧ ∃ o, (r.get o).cs = 1 := by
  have hentries : routeOk r = ((Chan.all.map r.get).all Dest.inRange
      && decide (Chan.all.map r.get).Nodup && (Chan.all.map r.get).any (fun d => d.cs == 0)
      && (Chan.all.map r.get).any (fun d => d.cs == 1)) := rfl
  rw [hentries]
  simp [nodup_map_get, Chan.mem_all, Dest.inRange_iff, and_assoc]

/-- Four distinct entries, all among the four destinations, are the four destinations. -/
theorem entries_perm_destinations {r : Four Dest} (h : routeOk r = true) :
    (Chan.all.map r.get).Perm destinations := by
  obtain ⟨hrange, hinj, -, -⟩ := routeOk_iff.mp h
  have hsub : Chan.all.map r.get ⊆ destinations := by
    intro d hd
    obtain ⟨o, -, rfl⟩ := List.mem_map.mp hd
    exact mem_destinations.mpr (hrange o)
  exact ((nodup_map_get.mpr hinj).subperm hsub).perm_of_length_le (Nat.le_refl 4)

/-- Settles O37: a passing table's entries are a permutation of the destinations, so each is some output's,
and of one output only, because the entries are distinct. -/
theorem routeValidationIsBijection : Obligations.RouteValidationIsBijection := by
  refine ⟨fun _ => routeOk_iff, fun r h cs sub hcs hsub => ?_, rfl⟩
  have hmem : (⟨cs, sub⟩ : Dest) ∈ Chan.all.map r.get :=
    (entries_perm_destinations h).mem_iff.mpr (mem_destinations.mpr ⟨hcs, hsub⟩)
  obtain ⟨o, -, ho⟩ := List.mem_map.mp hmem
  obtain ⟨-, hinj, -, -⟩ := routeOk_iff.mp h
  exact ⟨o, ho, fun o' ho' => hinj o' o (ho'.trans ho.symm)⟩

end Sys2Proof

namespace Sys2Proof.Machine

open Sys2Proof.Claims

/-! ### What a command leaves of a channel -/

/-- A DAC write, waiting or done, touches no analog channel. -/
@[simp] theorem dacWrite_analog (i : Instr) (l : ChipSel) (d : SubDac) (v : Int) (s : State) :
    (dacWrite i l d v s).analog = s.analog := by
  cases hb : s.busy with
  | true => rw [dacWrite_busy _ _ _ _ hb]; rfl
  | false => rw [dacWrite_idle _ _ _ _ hb]

/-- A DAC write, waiting or done, touches no trigger channel. -/
@[simp] theorem dacWrite_trigger (i : Instr) (l : ChipSel) (d : SubDac) (v : Int) (s : State) :
    (dacWrite i l d v s).trigger = s.trigger := by
  cases hb : s.busy with
  | true => rw [dacWrite_busy _ _ _ _ hb]; rfl
  | false => rw [dacWrite_idle _ _ _ _ hb]

/-- The outcomes of a command for one analog channel: unchanged, made stale, or updated (R22, R40). -/
theorem Ending.channel_cases {i : Instr} {s t : State} (h : Ending i s t) (b : Bank) (c : Chan) :
    t.channel b c = s.channel b c ∨
    (i = .sysCycle ∧ t.channel b c = { s.channel b c with fresh := false }) ∨
    (i = .anUpdate b c.id ∧ (t.channel b c).fresh = true) := by
  cases h with
  | rejected | answered => subst t; exact .inl rfl
  | cycled hi h => subst h; exact .inr (.inl ⟨hi, by simp [State.channel]⟩)
  | updated b' c' hi h =>
    subst h
    simp only [updateChannel_eq, State.channel]
    by_cases hsame : (b, c) = (b', c')
    · cases hsame
      exact .inr (.inr ⟨hi, by simp⟩)
    · exact .inl (Banks.get_set_other _ _ hsame)
  | refreshed c' hi h => subst h; exact .inl rfl
  | wrote l d v hi h => exact .inl (by rw [h, State.channel, dacWrite_analog, State.channel])

/-- The outcomes of a command for one trigger channel: unchanged, made stale, or refreshed (R40, R146). -/
theorem Ending.trig_cases {i : Instr} {s t : State} (h : Ending i s t) (c : Chan) :
    t.trig c = s.trig c ∨
    (i = .sysCycle ∧ t.trig c = { s.trig c with fresh := false }) ∨
    (i = .trRefresh c.id ∧ (t.trig c).fresh = true) := by
  cases h with
  | rejected | answered => subst t; exact .inl rfl
  | cycled hi h => subst h; exact .inr (.inl ⟨hi, by simp [State.trig]⟩)
  | updated b' c' hi h => subst h; exact .inl rfl
  | refreshed c' hi h =>
    subst h
    simp only [refreshTrigger_eq, State.trig]
    by_cases hsame : c = c'
    · cases hsame
      exact .inr (.inr ⟨hi, by simp⟩)
    · exact .inl (Four.get_set_other _ _ hsame)
  | wrote l d v hi h => exact .inl (by rw [h, State.trig, dacWrite_trigger, State.trig])

/-- Settles O15, by the outcomes of a command for one analog channel. -/
theorem onlyUpdateWritesAnalogRegisters : Obligations.OnlyUpdateWritesAnalogRegisters := by
  intro i s t h b c hi
  rcases (ending_of_exec h).channel_cases b c with heq | ⟨-, heq⟩ | ⟨hupdate, -⟩
  · simp [heq]
  · simp [heq]
  · exact absurd hupdate hi

/-! ### Staleness (R40, R41) -/

/-- What each command of a list keeps, the list keeps. -/
theorem execAll_keeps {P : State → Prop} {l : List Instr} {s t : State}
    (hstep : ∀ i ∈ l, ∀ s t, exec i s = .next t → P s → P t)
    (h : execAll l s = .next t) (hs : P s) : P t := by
  induction l generalizing s with
  | nil => cases h; exact hs
  | cons i rest ih =>
    obtain ⟨u, hu, -⟩ := exec_ends i s
    simp only [execAll, hu] at h
    exact ih (fun j hj => hstep j (List.mem_cons_of_mem i hj)) h (hstep i List.mem_cons_self s u hu hs)

theorem exec_keeps_channel_fresh {i : Instr} {s t : State} (h : exec i s = .next t) (hi : i ≠ .sysCycle)
    (b : Bank) (c : Chan) (hs : (s.channel b c).fresh = true) : (t.channel b c).fresh = true := by
  rcases (ending_of_exec h).channel_cases b c with heq | ⟨hcycle, -⟩ | ⟨-, hfresh⟩
  · rw [heq, hs]
  · exact absurd hcycle hi
  · exact hfresh

theorem exec_keeps_trig_fresh {i : Instr} {s t : State} (h : exec i s = .next t) (hi : i ≠ .sysCycle)
    (c : Chan) (hs : (s.trig c).fresh = true) : (t.trig c).fresh = true := by
  rcases (ending_of_exec h).trig_cases c with heq | ⟨hcycle, -⟩ | ⟨-, hfresh⟩
  · rw [heq, hs]
  · exact absurd hcycle hi
  · exact hfresh

theorem channel_fresh_after_update {b : Bank} {c : Chan} {s t : State}
    (h : exec (.anUpdate b c.id) s = .next t) : (t.channel b c).fresh = true := by
  simp only [exec, execAnUpdate, chan?_id, Host.Outcome.next.injEq] at h
  simp [← h, updateChannel_eq, State.channel]

theorem trig_fresh_after_refresh {c : Chan} {s t : State}
    (h : exec (.trRefresh c.id) s = .next t) : (t.trig c).fresh = true := by
  simp only [exec, execTrRefresh, chan?_id, Host.Outcome.next.injEq] at h
  simp [← h, refreshTrigger_eq, State.trig]

/-- An analog query can be stale only on a valid channel. -/
theorem stale_of_staleAnalog {b : Bank} {ch : Nat} {s : State} (h : staleAnalog b ch s = true) :
    ∃ c, ch = Chan.id c ∧ (s.channel b c).fresh = false := by
  cases hc : chan? ch with
  | none => simp [staleAnalog, hc] at h
  | some c => exact ⟨c, (id_of_chan? hc).symm, by simpa [staleAnalog, hc] using h⟩

/-- A trigger query can be stale only on a valid channel. -/
theorem stale_of_staleTrigger {ch : Nat} {s : State} (h : staleTrigger ch s = true) :
    ∃ c, ch = Chan.id c ∧ (s.trig c).fresh = false := by
  cases hc : chan? ch with
  | none => simp [staleTrigger, hc] at h
  | some c => exact ⟨c, (id_of_chan? hc).symm, by simpa [staleTrigger, hc] using h⟩

@[simp] theorem staleAnalog_id (b : Bank) (c : Chan) (s : State) :
    staleAnalog b c.id s = !(s.channel b c).fresh := by simp [staleAnalog]

@[simp] theorem staleTrigger_id (c : Chan) (s : State) :
    staleTrigger c.id s = !(s.trig c).fresh := by simp [staleTrigger]

/-- Settles O23: the update or refresh sets the ghost bit, and no command but `sys.cycle` clears it. -/
theorem freshUntilNextCycle : Obligations.FreshUntilNextCycle := by
  constructor
  · intro b c later s t u hupdate hlater hrun
    have hfresh : (u.channel b c).fresh = true :=
      execAll_keeps (P := fun s => (s.channel b c).fresh = true)
        (fun i hi _ _ h => exec_keeps_channel_fresh h (ne_of_mem_of_not_mem hi hlater) b c)
        hrun (channel_fresh_after_update hupdate)
    simp [staleQuery, hfresh]
  · intro c later s t u hrefresh hlater hrun i hi
    have hfresh : (u.trig c).fresh = true :=
      execAll_keeps (P := fun s => (s.trig c).fresh = true)
        (fun i hi _ _ h => exec_keeps_trig_fresh h (ne_of_mem_of_not_mem hi hlater) c)
        hrun (trig_fresh_after_refresh hrefresh)
    simp only [List.mem_cons, List.not_mem_nil, or_false] at hi
    rcases hi with rfl | rfl | rfl | rfl <;> simp [staleQuery, hfresh]

/-! The five queries of a valid id, each one lookup of a latch (R121, R141 to R144). -/

@[simp] theorem exec_anChanged_id (b : Bank) (c : Chan) (s : State) :
    exec (.anChanged b c.id) s
      = .next (answerQuery (s.channel b c).fresh (s.channel b c).chg s) := by
  simp [exec, execAnChanged]

@[simp] theorem exec_trRose_id (c : Chan) (s : State) :
    exec (.trRose c.id) s = .next (answerQuery (s.trig c).fresh (s.trig c).fallE s) := by
  simp [exec, execTrRose]

@[simp] theorem exec_trFell_id (c : Chan) (s : State) :
    exec (.trFell c.id) s = .next (answerQuery (s.trig c).fresh (s.trig c).riseE s) := by
  simp [exec, execTrFell]

@[simp] theorem exec_trHigh_id (c : Chan) (s : State) :
    exec (.trHigh c.id) s = .next (answerQuery (s.trig c).fresh (!(s.trig c).lvlE) s) := by
  simp [exec, execTrHigh]

@[simp] theorem exec_trLow_id (c : Chan) (s : State) :
    exec (.trLow c.id) s = .next (answerQuery (s.trig c).fresh (s.trig c).lvlE s) := by
  simp [exec, execTrLow]

@[simp] theorem setEnv_channel (s : State) (e : Env) (b : Bank) (c : Chan) :
    (s.setEnv e).channel b c = s.channel b c := rfl

@[simp] theorem setEnv_trig (s : State) (e : Env) (c : Chan) : (s.setEnv e).trig c = s.trig c := rfl

/-- A stale query asks about one latch, whatever the environment (R41). -/
theorem exec_of_staleQuery {i : Instr} {s : State} (h : staleQuery i s = true) :
    ∃ latch, ∀ e, exec i (s.setEnv e) = .next (answerQuery false latch (s.setEnv e)) := by
  cases i with
  | anChanged b ch =>
    obtain ⟨c, rfl, hstale⟩ := stale_of_staleAnalog h
    exact ⟨_, fun e => by rw [exec_anChanged_id, setEnv_channel, hstale]⟩
  | trRose ch =>
    obtain ⟨c, rfl, hstale⟩ := stale_of_staleTrigger h
    exact ⟨_, fun e => by rw [exec_trRose_id, setEnv_trig, hstale]⟩
  | trFell ch =>
    obtain ⟨c, rfl, hstale⟩ := stale_of_staleTrigger h
    exact ⟨_, fun e => by rw [exec_trFell_id, setEnv_trig, hstale]⟩
  | trHigh ch =>
    obtain ⟨c, rfl, hstale⟩ := stale_of_staleTrigger h
    exact ⟨_, fun e => by rw [exec_trHigh_id, setEnv_trig, hstale]⟩
  | trLow ch =>
    obtain ⟨c, rfl, hstale⟩ := stale_of_staleTrigger h
    exact ⟨_, fun e => by rw [exec_trLow_id, setEnv_trig, hstale]⟩
  | _ => cases h

/-- Settles O24: the query asks about one latch; under `draw` the settled answer is the result, under
`latch` the latch is. -/
theorem staleQueryAdmitsBothAnswers : Obligations.StaleQueryAdmitsBothAnswers := by
  intro i s hstale
  obtain ⟨latch, hexec⟩ := exec_of_staleQuery hstale
  constructor
  · intro hdraw p
    exact (hexec _).trans (congrArg _ (answerQuery_draw latch hdraw))
  · intro hlatch
    exact ⟨latch, fun e => (hexec e).trans (congrArg _ (answerQuery_latch latch hlatch))⟩

/-! ### What a command leaves outside the channels -/

theorem sameButChannels_refl (s : State) : SameButChannels s s := ⟨rfl, rfl, rfl, rfl, rfl, rfl, rfl, rfl⟩

/-- Outside the channels a command is rejected, returns one result, or writes to a DAC (R200, R201). -/
theorem Ending.cases_outside_channels {i : Instr} {s t : State} (h : Ending i s t) :
    (∃ d code, t = s.reject d code) ∨
    (SameButChannels s t ∧ ∃ r, t.results = s.results ++ [r]) ∨
    ∃ l d v, t = dacWrite i l d v s := by
  cases h with
  | rejected d code h => exact .inl ⟨d, code, h⟩
  | answered | cycled | updated | refreshed =>
    subst t
    exact .inr (.inl ⟨sameButChannels_refl s, _, rfl⟩)
  | wrote l d v _ h => exact .inr (.inr ⟨l, d, v, h⟩)

/-! ### Configuration and outputs without a reset -/

/-- From `s` to `t` the configuration is kept, no trace ended, and the outputs only grew (R42, R43, R74). -/
structure Extends (s t : State) : Prop where
  cfg         : t.cfg = s.cfg
  cfgErr      : t.cfgErr = s.cfgErr
  endedTraces : t.endedTraces = s.endedTraces
  results     : s.results <+: t.results
  trace       : s.trace <+: t.trace

theorem Extends.refl (s : State) : Extends s s := ⟨rfl, rfl, rfl, List.prefix_rfl, List.prefix_rfl⟩

theorem Extends.trans {s t u : State} (h : Extends s t) (h' : Extends t u) : Extends s u where
  cfg         := h'.cfg.trans h.cfg
  cfgErr      := h'.cfgErr.trans h.cfgErr
  endedTraces := h'.endedTraces.trans h.endedTraces
  results     := h.results.trans h'.results
  trace       := h.trace.trans h'.trace

theorem extends_setPort (s : State) (p : List PortInput) : Extends s (s.setPort p) :=
  ⟨rfl, rfl, rfl, List.prefix_rfl, List.prefix_rfl⟩

theorem extends_reject (s : State) (d : Diag) (r : Word) : Extends s (s.reject d r) :=
  ⟨rfl, rfl, rfl, List.prefix_append _ _, List.prefix_append _ _⟩

theorem extends_dacWrite (i : Instr) (c : ChipSel) (d : SubDac) (v : Int) (s : State) :
    Extends s (dacWrite i c d v s) := by
  cases hb : s.busy with
  | true => rw [dacWrite_busy _ _ _ _ hb]; exact extends_setPort s _
  | false =>
    rw [dacWrite_idle _ _ _ _ hb]
    exact ⟨rfl, rfl, rfl, List.prefix_append _ _, List.prefix_append _ _⟩

theorem extends_of_exec {i : Instr} {s t : State} (h : exec i s = .next t) : Extends s t := by
  rcases (ending_of_exec h).cases_outside_channels with ⟨d, r, rfl⟩ | ⟨hsame, r, hr⟩ | ⟨l, d, v, rfl⟩
  · exact extends_reject s d r
  · obtain ⟨hcfg, -, -, -, hcfgErr, htrace, hended, -⟩ := hsame
    exact ⟨hcfg, hcfgErr, hended, hr ▸ List.prefix_append _ _, htrace ▸ List.prefix_rfl⟩
  · exact extends_dacWrite i l d v s

theorem SeqStep.extends_run (q : SeqStep) (s : State) : Extends s (q.run s) := by
  cases q with
  | setBusy | clearBusy => exact ⟨rfl, rfl, rfl, List.prefix_rfl, List.prefix_rfl⟩
  | assertLine | claimBus | send | releaseBus | deassertLine =>
    exact ⟨rfl, rfl, rfl, List.prefix_rfl, List.prefix_append _ _⟩

theorem extends_runSequence (q : List SeqStep) (s : State) : Extends s (runSequence q s) := by
  induction q generalizing s with
  | nil => exact .refl s
  | cons x rest ih => exact (x.extends_run s).trans (ih (x.run s))

/-! ### Reset -/

/-- Reset while a command runs is reset of the state it finds, in which a DAC write may be under way
(R274; log 8). -/
theorem resetDuring_cases (cw arg : Word) (k : Nat) (s : State) :
    ∃ u, resetDuring cw arg k s = rst u ∧
      (u = s ∨ ∃ c d v, u = runSequence ((dacSequence s.cfg c d v).take k) s) := by
  cases hd : decode cw arg with
  | error e => exact ⟨s, by simp only [resetDuring, hd], .inl rfl⟩
  | ok i =>
    refine ⟨cutWrite i k s, by simp only [resetDuring, hd], ?_⟩
    cases hreq : dacRequest? i s with
    | none => exact .inl (by simp only [cutWrite, hreq])
    | some p =>
      obtain ⟨c, d, v⟩ := p
      cases hb : s.busy with
      | true => exact .inl (by simp [cutWrite, hreq, hb])
      | false => exact .inr ⟨c, d, v, by simp [cutWrite, hreq, hb]⟩

theorem not_resetNext_of_waiting {s : State} (hp : s.port = []) : ¬ ResetNext s := by
  rintro (⟨_, h⟩ | ⟨_, _, _, _, h⟩) <;> simp [hp] at h

theorem not_resetNext_of_command {s : State} {cw arg : Word} {rest : List PortInput}
    (hp : s.port = .command cw arg :: rest) : ¬ ResetNext s := by
  rintro (⟨_, h⟩ | ⟨_, _, _, _, h⟩) <;> simp [hp] at h

/-- A step either extends the state or, exactly when the input is a reset, resets an extension of it. -/
theorem step_extends_or_resets {s t : State} (h : step s = .next t) :
    (¬ ResetNext s ∧ Extends s t) ∨ (ResetNext s ∧ ∃ u, Extends s u ∧ t = rst u) := by
  cases ending_of_step h with
  | waited hp h => subst h; exact .inl ⟨not_resetNext_of_waiting hp, .refl t⟩
  | ran cw arg rest i hp _ h =>
    exact .inl ⟨not_resetNext_of_command hp, (extends_setPort s rest).trans (extends_of_exec h)⟩
  | illegal cw arg rest e hp _ h =>
    subst h
    exact .inl ⟨not_resetNext_of_command hp, (extends_setPort s rest).trans (extends_reject _ _ _)⟩
  | reset rest hp h => exact .inr ⟨.inl ⟨rest, hp⟩, _, extends_setPort s rest, h⟩
  | cut cw arg k rest hp h =>
    obtain ⟨u, hu, hcut⟩ := resetDuring_cases cw arg k (s.setPort rest)
    refine .inr ⟨.inr ⟨cw, arg, k, rest, hp⟩, u, (extends_setPort s rest).trans ?_, h.trans hu⟩
    rcases hcut with rfl | ⟨c, d, v, rfl⟩
    · exact .refl _
    · exact extends_runSequence _ _

/-- Settles O52: an extension keeps the configuration, and a reset computes `cfg_err` from it. -/
theorem configurationIsFixed : Obligations.ConfigurationIsFixed := by
  intro s t h
  rcases step_extends_or_resets h with ⟨hno, hext⟩ | ⟨hreset, u, hext, rfl⟩
  · exact ⟨hext.cfg, fun _ => hext.cfgErr, fun hreset => absurd hreset hno⟩
  · exact ⟨hext.cfg, fun hno => absurd hreset hno, fun _ => by rw [rst_cfgErr, hext.cfg]⟩

/-- Settles O53: an extension keeps what was emitted, and a reset ends the trace of an extension. -/
theorem outputsOnlyGrow : Obligations.OutputsOnlyGrow := by
  intro s t h
  rcases step_extends_or_resets h with ⟨hno, hext⟩ | ⟨hreset, u, hext, rfl⟩
  · exact ⟨hext.results, fun _ => ⟨hext.trace, hext.endedTraces⟩, fun hreset => absurd hreset hno⟩
  · have hended : s.trace <+: u.trace ++ abandonEvents u :=
      hext.trace.trans (List.prefix_append _ _)
    exact ⟨hext.results, fun hno => absurd hreset hno,
      fun _ => ⟨rfl, _, hended, by rw [rst_endedTraces, hext.endedTraces]⟩⟩

/-! ### Whole frames -/

theorem phaseAfter_append (t u : List Event) :
    phaseAfter (t ++ u) = (phaseAfter t).bind fun p => u.foldlM BusPhase.after p :=
  List.foldlM_append

theorem phaseAfter_concat {t : List Event} {p : BusPhase} (h : phaseAfter t = some p) (e : Event) :
    phaseAfter (t ++ [e]) = p.after e := by
  simp [phaseAfter_append, h]

theorem WholeFrames.append {t u : List Event} (ht : WholeFrames t) (hu : WholeFrames u) :
    WholeFrames (t ++ u) := by
  have ht' : phaseAfter t = some .idle := ht
  rw [WholeFrames, phaseAfter_append, ht']
  exact hu

theorem wholeFrames_diag (p : Bool) (d : Diag) : WholeFrames (if p then [.diag d] else []) := by
  cases p <;> rfl

/-- The six events of one write are a whole frame (R71, R200). -/
theorem wholeFrames_frameEvents (p : Params) (c : ChipSel) (d : SubDac) (v : Int) :
    WholeFrames (frameEvents p c d v) := by cases c <;> rfl

/-! ### A DAC write under way (R190, R194) -/

/-- The levels of the lines at this place of the bracket. -/
def BusPhase.lines : BusPhase → Lines Bool
  | .idle => ⟨true, true⟩
  | .selected c | .claimed c _ | .released c => Lines.set ⟨true, true⟩ c false

/-- Is the bus owned at this place of the bracket? -/
def BusPhase.ownsBus : BusPhase → Bool
  | .claimed _ _ => true
  | .idle | .selected _ | .released _ => false

/-- The trace stands at place `p` of the bracket, and the lines and the bus are as they are there. -/
structure StandsAt (s : State) (p : BusPhase) : Prop where
  trace : phaseAfter s.trace = some p
  lines : s.csN = p.lines
  bus   : s.busOwned = p.ownsBus

/-- Reset closes the bracket as its place requires (R274). -/
theorem StandsAt.abandonEvents {s : State} {p : BusPhase} (h : StandsAt s p) :
    abandonEvents s = p.abandon := by
  obtain ⟨-, hlines, hbus⟩ := h
  rw [Machine.abandonEvents, hlines, hbus]
  rcases p with _ | c | ⟨c, n⟩ | c
  · rfl
  all_goals cases c <;> rfl

theorem StandsAt.setBusy {s : State} {p : BusPhase} (h : StandsAt s p) (b : Bool) :
    StandsAt (s.setBusy b) p := ⟨h.trace, h.lines, h.bus⟩

theorem StandsAt.csAssert {s : State} (h : StandsAt s .idle) (c : ChipSel) :
    StandsAt (csAssert c s) (.selected c) where
  trace := phaseAfter_concat h.trace _
  lines := congrArg (Lines.set · c false) h.lines
  bus   := h.bus

theorem StandsAt.busClaim {s : State} {c : ChipSel} (h : StandsAt s (.selected c)) :
    StandsAt (busClaim s) (.claimed c 0) :=
  ⟨phaseAfter_concat h.trace _, h.lines, rfl⟩

theorem StandsAt.busTransmit_first {s : State} {c : ChipSel} (h : StandsAt s (.claimed c 0)) (x : Byte) :
    StandsAt (busTransmit x s) (.claimed c 1) :=
  ⟨phaseAfter_concat h.trace _, h.lines, h.bus⟩

theorem StandsAt.busTransmit_second {s : State} {c : ChipSel} (h : StandsAt s (.claimed c 1)) (x : Byte) :
    StandsAt (busTransmit x s) (.claimed c 2) :=
  ⟨phaseAfter_concat h.trace _, h.lines, h.bus⟩

theorem StandsAt.busRelease {s : State} {c : ChipSel} (h : StandsAt s (.claimed c 2)) :
    StandsAt (busRelease s) (.released c) :=
  ⟨phaseAfter_concat h.trace _, h.lines, rfl⟩

theorem StandsAt.csDeassert {s : State} {c : ChipSel} (h : StandsAt s (.released c)) :
    StandsAt (csDeassert c s) .idle where
  trace := (phaseAfter_concat h.trace _).trans (if_pos rfl)
  lines := (congrArg (Lines.set · c true) h.lines).trans (by cases c <;> rfl)
  bus   := h.bus

/-- However many steps of a DAC write are done, the trace, the lines and the bus stand at one place of the
bracket (R190, R194). -/
theorem standsAt_take {s : State} (h : StandsAt s .idle) (c : ChipSel) (d : SubDac) (v : Int) (k : Nat) :
    ∃ p, StandsAt (runSequence ((dacSequence s.cfg c d v).take k) s) p := by
  have busy := h.setBusy true
  have selected := busy.csAssert c
  have claimed := selected.busClaim
  have firstByte := claimed.busTransmit_first (frameHi (dacFrame s.cfg.dacCtrl3 d v))
  have secondByte := firstByte.busTransmit_second (frameLo (dacFrame s.cfg.dacCtrl3 d v))
  have released := secondByte.busRelease
  have deselected := released.csDeassert
  have finished := deselected.setBusy false
  match k with
  | 0 => exact ⟨_, h⟩
  | 1 => exact ⟨_, busy⟩
  | 2 => exact ⟨_, selected⟩
  | 3 => exact ⟨_, claimed⟩
  | 4 => exact ⟨_, firstByte⟩
  | 5 => exact ⟨_, secondByte⟩
  | 6 => exact ⟨_, released⟩
  | 7 => exact ⟨_, deselected⟩
  | n + 8 =>
    rw [List.take_of_length_le (Nat.le_add_left 8 n)]
    exact ⟨_, finished⟩

/-! ### The invariant -/

theorem Inv.standsAt {s : State} (h : Inv s) : StandsAt s .idle :=
  let ⟨hcs, hbus, _⟩ := h.quiet
  ⟨h.trace, hcs, hbus⟩

theorem Inv.setPort {s : State} (h : Inv s) (p : List PortInput) : Inv (s.setPort p) :=
  ⟨h.quiet, h.cfgErr, h.trace, h.ended⟩

theorem Inv.reject {s : State} (h : Inv s) (d : Diag) (r : Word) : Inv (s.reject d r) :=
  ⟨h.quiet, h.cfgErr, h.trace.append (wholeFrames_diag _ d), h.ended⟩

theorem Inv.of_sameButChannels {s t : State} (h : Inv s) (hsame : SameButChannels s t) : Inv t := by
  obtain ⟨hcfg, hcs, hbus, hbusy, hcfgErr, htrace, hended, -⟩ := hsame
  obtain ⟨hquiet, hvalid, hwhole, hold⟩ := h
  refine ⟨?_, ?_, ?_, ?_⟩
  · rw [Quiet, hcs, hbus, hbusy]; exact hquiet
  · rw [hcfgErr, hcfg, hvalid]
  · rw [htrace]; exact hwhole
  · rw [hended]; exact hold

/-- A DAC write of a quiet block is one whole frame and leaves it quiet (R186, R191). -/
theorem Inv.dacWrite {s : State} (h : Inv s) (i : Instr) (c : ChipSel) (d : SubDac) (v : Int) :
    Inv (dacWrite i c d v s) := by
  obtain ⟨hcs, hbus, hbusy⟩ := h.quiet
  rw [dacWrite_idle i c d v hbusy]
  refine ⟨⟨?_, rfl, rfl⟩, h.cfgErr, h.trace.append (wholeFrames_frameEvents s.cfg c d v), h.ended⟩
  rw [hcs]
  cases c <;> rfl

theorem exec_keeps_inv {i : Instr} {s t : State} (hs : Inv s) (h : exec i s = .next t) : Inv t := by
  rcases (ending_of_exec h).cases_outside_channels with ⟨d, r, rfl⟩ | ⟨hsame, -⟩ | ⟨l, d, v, rfl⟩
  · exact hs.reject d r
  · exact hs.of_sameButChannels hsame
  · exact hs.dacWrite i l d v

/-- Reset restores the invariant from any place of the bracket (R270, R274). -/
theorem inv_rst {s : State} {p : BusPhase} (hold : ∀ t ∈ s.endedTraces, EndedByReset t)
    (h : StandsAt s p) : Inv (rst s) where
  quiet  := ⟨rfl, rfl, rfl⟩
  cfgErr := rfl
  trace  := rfl
  ended  := by
    intro t ht
    rw [rst_endedTraces, List.mem_append, List.mem_singleton] at ht
    rcases ht with ht | rfl
    · exact hold t ht
    · exact ⟨s.trace, p, h.trace, by rw [h.abandonEvents]⟩

theorem Inv.resetDuring {s : State} (h : Inv s) (cw arg : Word) (k : Nat) :
    Inv (resetDuring cw arg k s) := by
  obtain ⟨u, hu, hcut⟩ := resetDuring_cases cw arg k s
  rw [hu]
  rcases hcut with rfl | ⟨c, d, v, rfl⟩
  · exact inv_rst h.ended h.standsAt
  · obtain ⟨p, hp⟩ := standsAt_take h.standsAt c d v k
    refine inv_rst ?_ hp
    rw [(extends_runSequence _ s).endedTraces]
    exact h.ended

/-- Settles O50, by the ways a step can end. -/
theorem stepKeepsInvariant : Obligations.StepKeepsInvariant := by
  intro s t hs hstep
  cases ending_of_step hstep with
  | waited _ h => exact h ▸ hs
  | ran cw arg rest i _ _ h => exact exec_keeps_inv (hs.setPort rest) h
  | illegal cw arg rest e _ _ h => exact h ▸ (hs.setPort rest).reject _ _
  | reset rest _ h => exact h ▸ inv_rst (hs.setPort rest).ended (hs.setPort rest).standsAt
  | cut cw arg k rest _ h => exact h ▸ (hs.setPort rest).resetDuring cw arg k

/-! ### The reset state (R45) -/

/-- Settles O44: the fixed values are those of `State.afterReset`, and every channel's ghost bit is 0. -/
theorem resetValues : Obligations.ResetValues := by
  refine ⟨rfl, rfl, rfl, rfl, rfl, fun b c => ?_, fun c => ?_⟩
  · simp [State.reset, State.afterReset, State.channel, AnalogChannel.afterReset]
  · simp [State.reset, State.afterReset, State.trig, TriggerChannel.afterReset]

/-- Settles O49: the values after reset are quiet, with no trace yet. -/
theorem resetMeetsInvariant : Obligations.ResetMeetsInvariant where
  quiet  := ⟨rfl, rfl, rfl⟩
  cfgErr := rfl
  trace  := rfl
  ended  := fun _ h => absurd h List.not_mem_nil

end Sys2Proof.Machine
end

section
/-! SUPPORT. The wire (family 20_memory): the frame's two bytes as section 44 counts them, the bits the six
events of a write put on SDO, and the wave of any list of bits, read at its rising edges. -/

namespace Sys2Proof.Machine

open Sys2Proof.Claims

/-! ### The two bytes of a frame (R183, R185) -/

theorem clamp_eq_clampTo (v : Int) {lo hi : Int} (h : lo ≤ hi) : clamp v lo hi = clampTo v lo hi :=
  clamp_eq_min_max v h

theorem frameHi_dacFrame (ctrl3 : BitVec 3) (d : SubDac) (v : Int) :
    frameHi (dacFrame ctrl3 d v) = hiByte ctrl3 d v := by
  apply BitVec.eq_of_toNat_eq
  rw [frameHi, BitVec.extractLsb'_toNat, dacFrame_toNat, hiByte, BitVec.toNat_ofNat,
    clamp_eq_clampTo v (by omega), Nat.shiftRight_eq_div_pow]
  omega

theorem frameLo_dacFrame (ctrl3 : BitVec 3) (d : SubDac) (v : Int) :
    frameLo (dacFrame ctrl3 d v) = loByte v := by
  apply BitVec.eq_of_toNat_eq
  rw [frameLo, BitVec.extractLsb'_toNat, dacFrame_toNat, loByte, BitVec.toNat_ofNat,
    clamp_eq_clampTo v (by omega), Nat.shiftRight_zero]
  omega

/-! ### The bits on SDO (R68) -/

theorem byteBits_frameHi (df : BitVec 16) :
    byteBits (frameHi df) = [15, 14, 13, 12, 11, 10, 9, 8].map df.getLsbD := by
  simp [byteBits, frameHi]

theorem byteBits_frameLo (df : BitVec 16) :
    byteBits (frameLo df) = [7, 6, 5, 4, 3, 2, 1, 0].map df.getLsbD := by
  simp [byteBits, frameLo]

/-- Of the six events only the two transfers reach SDO, the high byte first. -/
theorem sdoBits_sixEvents (hz : Nat) (c : ChipSel) (hi lo : Byte) :
    sdoBits (sixEvents hz c hi lo) = byteBits hi ++ byteBits lo := by
  simp [sdoBits, sixEvents]

theorem sdoBits_sixEvents_dacFrame (hz : Nat) (c : ChipSel) (ctrl3 : BitVec 3) (d : SubDac) (v : Int) :
    sdoBits (sixEvents hz c (hiByte ctrl3 d v) (loByte v)) =
      [15, 14, 13, 12, 11, 10, 9, 8, 7, 6, 5, 4, 3, 2, 1, 0].map (dacFrame ctrl3 d v).getLsbD := by
  rw [sdoBits_sixEvents, ← frameHi_dacFrame, ← frameLo_dacFrame ctrl3 d, byteBits_frameHi,
    byteBits_frameLo, ← List.map_append]
  rfl

/-! ### The wave of a list of bits (R67; log 12) -/

/-- The pins while these bits leave: each stands on SDO through a low and a high level of SCK, and SCK is
low afterwards. -/
def bitsWave : List Bool → List PinLevels
  | [] => [⟨false, none⟩]
  | b :: bs => ⟨false, some b⟩ :: ⟨true, some b⟩ :: bitsWave bs

theorem byteWave_eq_bitsWave (x : Byte) : byteWave x = bitsWave (byteBits x) := rfl

theorem risingSamples_cons_of_high (o : Option Bool) (w : List PinLevels) :
    risingSamples (⟨true, o⟩ :: w) = risingSamples w := by
  cases w <;> simp [risingSamples]

theorem risingSamples_bitsWave (bs : List Bool) : risingSamples (bitsWave bs) = bs.map some := by
  induction bs with
  | nil => rfl
  | cons b bs ih => simp [bitsWave, risingSamples, risingSamples_cons_of_high, ih]

/-- A wave of bits begins with SCK low, so whatever level stood before it may change there. -/
theorem sdoSteadyWhileHigh_cons_bitsWave (p : PinLevels) (bs : List Bool) :
    sdoSteadyWhileHigh (p :: bitsWave bs) = sdoSteadyWhileHigh (bitsWave bs) := by
  cases bs <;> simp [bitsWave, sdoSteadyWhileHigh]

theorem sdoSteadyWhileHigh_bitsWave (bs : List Bool) : sdoSteadyWhileHigh (bitsWave bs) = true := by
  induction bs with
  | nil => rfl
  | cons b bs ih => simp [bitsWave, sdoSteadyWhileHigh, sdoSteadyWhileHigh_cons_bitsWave, ih]

/-- Settles O35: the order by the frame's two bytes, the pins by induction over the bits of the wave. -/
theorem frameLeavesMsbFirst : Obligations.FrameLeavesMsbFirst := by
  refine ⟨sdoBits_sixEvents_dacFrame, fun x => ?_⟩
  rw [byteWave_eq_bitsWave]
  exact ⟨risingSamples_bitsWave _, sdoSteadyWhileHigh_bitsWave _⟩

end Sys2Proof.Machine
end

section
/-! SUPPORT. The encoding (family 30_encoding): the word's fields under the masks of R92, the word that an
`OP` and its operands make, the rows of the opcode map, and the two round trips of the decoder and the
encoder. -/

namespace Sys2Proof

open Sys2Proof.Claims Sys2Proof.Machine

/-! ### The fields of a word under the masks (R91, R92) -/

/-- The mask of `n` bits from bit `k` up keeps that field in its place. -/
theorem and_field (k n : Nat) (cw : Word) :
    cw &&& (BitVec.allOnes n).setWidth 32 <<< k = (cw.extractLsb' k n).setWidth 32 <<< k := by
  ext i hi
  by_cases hk : i < k
  · simp [hk]
  · have hbit : k + (i - k) = i := by omega
    simp [hk, hbit, hi, Bool.and_comm]

theorem and_field_eq_zero (k n : Nat) (cw : Word) (hk : k + n ≤ 32) :
    cw &&& (BitVec.allOnes n).setWidth 32 <<< k = 0#32 ↔ cw.extractLsb' k n = 0#n := by
  constructor
  · intro h
    ext i hi
    have hbit := congrArg (·.getLsbD (k + i)) h
    simpa [hi, show k + i < 32 by omega, show i < 32 by omega] using hbit
  · intro h
    rw [and_field, h]
    simp

/-- `OP` in its place (R91). -/
def opWord (op : BitVec 6) : Word := op.setWidth 32 <<< 26

theorem and_opMask (cw : Word) : cw &&& 0xFC000000#32 = opWord (opOf cw) := and_field 26 6 cw

theorem and_bankMask (cw arg : Word) : cw &&& 0x02000000#32 = 0#32 ↔ (operandsOf cw arg).b = .cv := by
  have h := and_field_eq_zero 25 1 cw (by decide)
  simpa [operandsOf, BitVec.eq_of_getLsbD_eq_iff] using h

theorem and_chanMask (cw arg : Word) : cw &&& 0x01C00000#32 = 0#32 ↔ (operandsOf cw arg).ch = 0 :=
  (and_field_eq_zero 22 3 cw (by decide)).trans BitVec.toNat_inj.symm

theorem and_csMask (cw arg : Word) : cw &&& 0x00300000#32 = 0#32 ↔ (operandsOf cw arg).cs = 0 :=
  (and_field_eq_zero 20 2 cw (by decide)).trans BitVec.toNat_inj.symm

theorem and_subMask (cw arg : Word) : cw &&& 0x000C0000#32 = 0#32 ↔ (operandsOf cw arg).sub = 0 :=
  (and_field_eq_zero 18 2 cw (by decide)).trans BitVec.toNat_inj.symm

theorem and_resMask (cw : Word) : cw &&& 0x0003FFFF#32 = 0#32 ↔ cw.extractLsb' 0 18 = 0#18 :=
  and_field_eq_zero 0 18 cw (by decide)

/-- The operands with every field that the format does not use at 0; `ARG` is no field of `CW` (R92). -/
def Operands.only (f : Operands) : Format → Operands
  | .N => ⟨.cv, 0, 0, 0, f.v⟩
  | .A => ⟨f.b, f.ch, 0, 0, f.v⟩
  | .T => ⟨.cv, f.ch, 0, 0, f.v⟩
  | .D => ⟨.cv, 0, f.cs, f.sub, f.v⟩

theorem Operands.only_eq_self_iff (f : Operands) (fmt : Format) : f.only fmt = f ↔
    (f.only fmt).b = f.b ∧ (f.only fmt).ch = f.ch ∧ (f.only fmt).cs = f.cs ∧ (f.only fmt).sub = f.sub := by
  obtain ⟨b, ch, cs, sub, v⟩ := f
  cases fmt <;> simp [only]

/-- The must-be-zero fields of a format are `RES` and the operands the format does not use (R92). -/
theorem and_mustBeZero_iff (cw arg : Word) (fmt : Format) : cw &&& mustBeZero fmt = 0#32 ↔
    cw.extractLsb' 0 18 = 0#18 ∧ (operandsOf cw arg).only fmt = operandsOf cw arg := by
  rw [Operands.only_eq_self_iff]
  cases fmt <;>
    simp only [mustBeZero, BitVec.and_or_distrib_left, BitVec.or_eq_zero_iff, and_bankMask cw arg,
      and_chanMask cw arg, and_csMask cw arg, and_subMask cw arg, and_resMask, Operands.only] <;>
    grind

/-! ### The word an `OP` and its operands make (R91) -/

/-- Every operand is in the range of its field, and `v` in that of `ARG` (R91, R93). -/
def Operands.Fits (f : Operands) : Prop :=
  f.ch ≤ 7 ∧ f.cs ≤ 3 ∧ f.sub ≤ 3 ∧ -2 ^ 31 ≤ f.v ∧ f.v ≤ 2 ^ 31 - 1

theorem fits_operandsOf (cw arg : Word) : (operandsOf cw arg).Fits := by
  have := arg.le_toInt
  have := arg.toInt_lt
  simp only [Operands.Fits, operandsOf, BitVec.extractLsb'_toNat]
  omega

/-- `CW` with this `OP`, these operands and `RES` = 0 (R91). -/
def commandWord (op : BitVec 6) (f : Operands) : Word :=
  opWord op ||| (bankBits f.b ||| (chanBits f.ch ||| (csBits f.cs ||| subBits f.sub)))

/-- Words of disjoint fields are put together by addition. -/
theorem or_toNat_of_disjoint {x y : Word} (k : Nat) (hx : x.toNat % 2 ^ k = 0) (hy : y.toNat < 2 ^ k) :
    (x ||| y).toNat = x.toNat + y.toNat := by
  have hshift : x.toNat = (x.toNat / 2 ^ k) <<< k := by
    rw [Nat.shiftLeft_eq, Nat.div_mul_cancel (Nat.dvd_of_mod_eq_zero hx)]
  rw [BitVec.toNat_or, hshift, ← Nat.shiftLeft_add_eq_or_of_lt hy]

/-- `B` as a number (R91). -/
def bankIndex : Bank → Nat
  | .cv   => 0
  | .knob => 1

theorem bankIndex_le (b : Bank) : bankIndex b ≤ 1 := by cases b <;> decide

theorem bankIndex_injective : bankIndex.Injective := by
  intro b b'
  cases b <;> cases b' <;> decide

theorem bankBits_toNat (b : Bank) : (bankBits b).toNat = bankIndex b * 2 ^ 25 := by cases b <;> rfl

/-- The fields of a command word, as one number (R91). -/
theorem commandWord_toNat (op : BitVec 6) {f : Operands} (hf : f.Fits) :
    (commandWord op f).toNat = op.toNat * 2 ^ 26 + bankIndex f.b * 2 ^ 25 + f.ch * 2 ^ 22
      + f.cs * 2 ^ 20 + f.sub * 2 ^ 18 := by
  obtain ⟨hch, hcs, hsub, -⟩ := hf
  have hb := bankIndex_le f.b
  have opNat : (opWord op).toNat = op.toNat * 2 ^ 26 := by
    simp [opWord, Nat.shiftLeft_eq]; omega
  have bankNat := bankBits_toNat f.b
  have chanNat : (chanBits f.ch).toNat = f.ch * 2 ^ 22 := by
    simp [chanBits, Nat.shiftLeft_eq]; omega
  have csNat : (csBits f.cs).toNat = f.cs * 2 ^ 20 := by
    simp [csBits, Nat.shiftLeft_eq]; omega
  have subNat : (subBits f.sub).toNat = f.sub * 2 ^ 18 := by
    simp [subBits, Nat.shiftLeft_eq]; omega
  have fromCs := or_toNat_of_disjoint (x := csBits f.cs) (y := subBits f.sub) 20 (by omega) (by omega)
  have fromChan := or_toNat_of_disjoint (x := chanBits f.ch) 22 (by omega) (fromCs.trans_lt (by omega))
  have fromBank := or_toNat_of_disjoint (x := bankBits f.b) 25 (by omega) (fromChan.trans_lt (by omega))
  have fromOp := or_toNat_of_disjoint (x := opWord op) 26 (by omega) (fromBank.trans_lt (by omega))
  rw [commandWord]
  omega

theorem opOf_toNat (cw : Word) : (opOf cw).toNat = cw.toNat / 2 ^ 26 := by
  rw [opOf, BitVec.extractLsb'_toNat, Nat.shiftRight_eq_div_pow]
  omega

theorem bankIndex_operandsOf (cw arg : Word) :
    bankIndex (operandsOf cw arg).b = cw.toNat / 2 ^ 25 % 2 := by
  simp only [operandsOf, BitVec.getLsbD, Nat.testBit_eq_decide_div_mod_eq, decide_eq_true_eq]
  split <;> simp only [bankIndex] <;> omega

theorem ch_operandsOf (cw arg : Word) : (operandsOf cw arg).ch = cw.toNat / 2 ^ 22 % 8 := by
  simp only [operandsOf, BitVec.extractLsb'_toNat, Nat.shiftRight_eq_div_pow, Nat.reducePow]

theorem cs_operandsOf (cw arg : Word) : (operandsOf cw arg).cs = cw.toNat / 2 ^ 20 % 4 := by
  simp only [operandsOf, BitVec.extractLsb'_toNat, Nat.shiftRight_eq_div_pow, Nat.reducePow]

theorem sub_operandsOf (cw arg : Word) : (operandsOf cw arg).sub = cw.toNat / 2 ^ 18 % 4 := by
  simp only [operandsOf, BitVec.extractLsb'_toNat, Nat.shiftRight_eq_div_pow, Nat.reducePow]

/-- A word with `RES` = 0 is made of its `OP` and its operands. -/
theorem commandWord_operandsOf {cw : Word} (arg : Word) (hres : cw.extractLsb' 0 18 = 0#18) :
    commandWord (opOf cw) (operandsOf cw arg) = cw := by
  have hres : cw.toNat % 2 ^ 18 = 0 := by simpa using congrArg BitVec.toNat hres
  apply BitVec.eq_of_toNat_eq
  rw [commandWord_toNat _ (fits_operandsOf cw arg), opOf_toNat, bankIndex_operandsOf, ch_operandsOf,
    cs_operandsOf, sub_operandsOf]
  omega

theorem opOf_commandWord (op : BitVec 6) {f : Operands} (hf : f.Fits) :
    opOf (commandWord op f) = op := by
  have hb := bankIndex_le f.b
  apply BitVec.eq_of_toNat_eq
  rw [opOf_toNat, commandWord_toNat op hf]
  obtain ⟨hch, hcs, hsub, -⟩ := hf
  omega

theorem res_commandWord (op : BitVec 6) {f : Operands} (hf : f.Fits) :
    (commandWord op f).extractLsb' 0 18 = 0#18 := by
  apply BitVec.eq_of_toNat_eq
  rw [BitVec.extractLsb'_toNat, commandWord_toNat op hf, Nat.shiftRight_zero, BitVec.toNat_ofNat]
  omega

theorem Operands.eq_of_fields {f g : Operands} (hb : bankIndex f.b = bankIndex g.b)
    (hch : f.ch = g.ch) (hcs : f.cs = g.cs) (hsub : f.sub = g.sub) (hv : f.v = g.v) : f = g := by
  have hbank : f.b = g.b := bankIndex_injective hb
  obtain ⟨b, ch, cs, sub, v⟩ := f
  rw [Operands.mk.injEq]
  exact ⟨hbank, hch, hcs, hsub, hv⟩

/-- The operands are read back from the word they make (R93). -/
theorem operandsOf_commandWord (op : BitVec 6) {f : Operands} (hf : f.Fits) :
    operandsOf (commandWord op f) (BitVec.ofInt 32 f.v) = f := by
  have hword := commandWord_toNat op hf
  have hb := bankIndex_le f.b
  obtain ⟨hch, hcs, hsub, hlo, hhi⟩ := hf
  apply Operands.eq_of_fields
  · rw [bankIndex_operandsOf]; omega
  · rw [ch_operandsOf]; omega
  · rw [cs_operandsOf]; omega
  · rw [sub_operandsOf]; omega
  · exact BitVec.toInt_ofInt_eq_self (by decide) (by omega) (by omega)

/-! ### Commands and their words (R95) -/

/-- The operands a command carries; a field its format does not use is 0, and so is `ARG` where the
command does not use it (R92, R93, R100). -/
def Instr.operands : Instr → Operands
  | .sysNop | .sysCycle | .sysStatus => ⟨.cv, 0, 0, 0, 0⟩
  | .anUpdate b ch | .anChanged b ch | .anRaw b ch | .anCur b ch | .anLast b ch => ⟨b, ch, 0, 0, 0⟩
  | .trRefresh ch | .trRose ch | .trFell ch | .trHigh ch | .trLow ch | .trRaw ch => ⟨.cv, ch, 0, 0, 0⟩
  | .scA2m v | .scM2d v | .scA2d v => ⟨.cv, 0, 0, 0, v⟩
  | .dacWrite cs sub v => ⟨.cv, 0, cs, sub, v⟩
  | .outWrite o v => ⟨.cv, o, 0, 0, v⟩

theorem wellFormed_iff_fits (i : Instr) : i.wellFormed = true ↔ i.operands.Fits := by
  cases i <;> simp [Instr.wellFormed, Instr.operands, Operands.Fits, chanEncodable, indexEncodable,
    argEncodable, and_assoc]

@[simp] theorem bankBits_cv : bankBits .cv = 0#32 := rfl
@[simp] theorem chanBits_zero : chanBits 0 = 0#32 := rfl
@[simp] theorem csBits_zero : csBits 0 = 0#32 := rfl
@[simp] theorem subBits_zero : subBits 0 = 0#32 := rfl

/-- The encoder puts the command's `OP` and operands together (R91, R95). -/
theorem encode_eq (i : Instr) :
    encode i = (commandWord (opNumber i) i.operands, BitVec.ofInt 32 i.operands.v) := by
  cases i <;> simp [encode, commandWord, Instr.operands, opNumber, opWord, BitVec.or_assoc]

/-! ### The rows of the opcode map (R95) -/

theorem opcodes_eq_map : opcodes = opcodeMap.map fun r => (opOf r.pattern, r.format) := rfl

theorem maskAndMatch_eq_map : maskAndMatch = opcodeMap.map fun r => (r.format.mask, r.pattern) := rfl

theorem rows_pairwise_op_ne : opcodeMap.Pairwise fun r r' => opOf r.pattern ≠ opOf r'.pattern := by
  decide

theorem row_pattern_eq : ∀ r ∈ opcodeMap, r.pattern = opWord (opOf r.pattern) := by decide

theorem mask_eq_op_or_mustBeZero (fmt : Format) : fmt.mask = 0xFC000000#32 ||| mustBeZero fmt := by
  cases fmt <;> rfl

/-- A row selects exactly the words of its `OP` whose must-be-zero fields are zero (R92, R95). -/
theorem selects_iff {r : Row} (hr : r ∈ opcodeMap) (cw : Word) :
    r.selects cw = true ↔ opOf cw = opOf r.pattern ∧ cw &&& mustBeZero r.format = 0#32 := by
  refine ⟨fun h => ⟨opOf_of_selects h, mustBeZero_of_selects hr h⟩, fun ⟨hop, hzero⟩ => ?_⟩
  rw [Row.selects, beq_iff_eq, mask_eq_op_or_mustBeZero, BitVec.and_or_distrib_left, hzero,
    BitVec.or_zero, and_opMask, hop, ← row_pattern_eq r hr]

/-- At most one row selects a word, because the rows differ in `OP` (R95). -/
theorem filter_selects_cases (cw : Word) :
    opcodeMap.filter (·.selects cw) = [] ∨ ∃ r, opcodeMap.filter (·.selects cw) = [r] := by
  have hop : ∀ r ∈ opcodeMap.filter (·.selects cw), opOf r.pattern = opOf cw :=
    fun r hr => (opOf_of_selects (List.mem_filter.mp hr).2).symm
  have hne := rows_pairwise_op_ne.filter (·.selects cw)
  generalize opcodeMap.filter (·.selects cw) = rows at hop hne ⊢
  rcases rows with _ | ⟨r, _ | ⟨r', rest⟩⟩
  · exact .inl rfl
  · exact .inr ⟨r, rfl⟩
  · have hsame : opOf r.pattern = opOf r'.pattern := by rw [hop r (by simp), hop r' (by simp)]
    exact absurd hsame (List.rel_of_pairwise_cons hne (by simp))

theorem filter_selects {r : Row} {cw : Word} (hr : r ∈ opcodeMap) (h : r.selects cw = true) :
    opcodeMap.filter (·.selects cw) = [r] := by
  have hmem : r ∈ opcodeMap.filter (·.selects cw) := List.mem_filter.mpr ⟨hr, h⟩
  rcases filter_selects_cases cw with hrows | ⟨r', hrows⟩ <;> rw [hrows] at hmem ⊢
  · cases hmem
  · rw [List.mem_singleton.mp hmem]

theorem decode_of_selects {r : Row} {cw : Word} (hr : r ∈ opcodeMap) (h : r.selects cw = true)
    (arg : Word) : decode cw arg = .ok (r.build (operandsOf cw arg)) := by
  have hfind : (opcodeMap.find? fun r => r.selects cw) = some r := by
    rw [← List.head?_filter, filter_selects hr h, List.head?_cons]
  rw [decode, hfind]

theorem selects_of_decode {cw arg : Word} {i : Instr} (h : decode cw arg = .ok i) :
    ∃ r ∈ opcodeMap, r.selects cw = true ∧ r.build (operandsOf cw arg) = i := by
  unfold decode at h
  split at h
  next r hfind =>
    cases h
    exact ⟨r, List.mem_of_find?_eq_some hfind, List.find?_some (p := fun r : Row => r.selects cw) hfind, rfl⟩
  next => cases h

/-- The row of a command's `OP` makes the command from its operands and uses all of them. -/
theorem exists_row (i : Instr) : ∃ r ∈ opcodeMap,
    opOf r.pattern = opNumber i ∧ r.build i.operands = i ∧ i.operands.only r.format = i.operands := by
  have hrow : (opcodeMap.find? fun r => opOf r.pattern == opNumber i).map
      (fun r => (r.build i.operands, i.operands.only r.format)) = some (i, i.operands) := by
    cases i <;> rfl
  obtain ⟨r, hfind, heq⟩ := Option.map_eq_some_iff.mp hrow
  obtain ⟨hbuild, honly⟩ := Prod.mk.inj heq
  have hop : (opOf r.pattern == opNumber i) = true :=
    List.find?_some (p := fun r : Row => opOf r.pattern == opNumber i) hfind
  exact ⟨r, List.mem_of_find?_eq_some hfind, eq_of_beq hop, hbuild, honly⟩

theorem opNumber_build {r : Row} (hr : r ∈ opcodeMap) (f : Operands) :
    opNumber (r.build f) = opOf r.pattern := by
  fin_cases hr <;> rfl

/-- A row's command carries the operands its format uses, and `ARG` if it uses it (R95). -/
theorem operands_build {r : Row} (hr : r ∈ opcodeMap) (f : Operands) :
    (r.build f).operands =
      { f.only r.format with v := if (r.build f).usesArg then f.v else 0 } := by
  fin_cases hr <;> rfl

/-- A command that does not use `ARG` ignores its value (R90). -/
theorem build_ignores_arg {r : Row} (hr : r ∈ opcodeMap) {f : Operands}
    (h : (r.build f).usesArg = false) (v : Int) : r.build { f with v := v } = r.build f := by
  revert h
  fin_cases hr <;> simp [Instr.usesArg]

/-! ### The two round trips -/

/-- The row of a well-formed command selects its encoding: the `OP` is the row's, and what the format
does not use is 0. -/
theorem selects_encode {r : Row} {i : Instr} (hr : r ∈ opcodeMap) (hi : i.wellFormed = true)
    (hop : opOf r.pattern = opNumber i) (honly : i.operands.only r.format = i.operands) :
    r.selects (encode i).1 = true := by
  have hfits := (wellFormed_iff_fits i).mp hi
  rw [selects_iff hr, and_mustBeZero_iff _ (BitVec.ofInt 32 i.operands.v), encode_eq,
    opOf_commandWord _ hfits, operandsOf_commandWord _ hfits]
  exact ⟨hop.symm, res_commandWord _ hfits, honly⟩

/-- Settles O2: the command's own row selects its word, and the operands are read back from it. -/
theorem decodeOfEncodeIsIdentity : Obligations.DecodeOfEncodeIsIdentity := by
  intro i hi
  obtain ⟨r, hr, hop, hbuild, honly⟩ := exists_row i
  rw [decode_of_selects hr (selects_encode hr hi hop honly), encode_eq,
    operandsOf_commandWord _ ((wellFormed_iff_fits i).mp hi), hbuild]

/-- Settles O3: the word is made of its row's `OP` and of the operands the command carries, since every
other field is 0. -/
theorem encodeOfDecodeIsIdentity : Obligations.EncodeOfDecodeIsIdentity := by
  intro cw arg i h
  obtain ⟨r, hr, hsel, rfl⟩ := selects_of_decode h
  obtain ⟨hop, hzero⟩ := (selects_iff hr cw).mp hsel
  obtain ⟨hres, honly⟩ := (and_mustBeZero_iff cw arg r.format).mp hzero
  have hoperands := operands_build hr (operandsOf cw arg)
  rw [honly] at hoperands
  refine ⟨?_, ?_, fun huses => ?_, fun hignores arg' => ?_⟩
  · obtain ⟨hch, hcs, hsub, hlo, hhi⟩ := fits_operandsOf cw arg
    rw [wellFormed_iff_fits, hoperands]
    refine ⟨hch, hcs, hsub, ?_⟩
    dsimp only
    split
    · exact ⟨hlo, hhi⟩
    · decide
  · rw [encode_eq, opNumber_build hr, ← hop, hoperands]
    exact commandWord_operandsOf arg hres
  · rw [encode_eq, hoperands, huses]
    exact BitVec.ofInt_toInt
  · rw [decode_of_selects hr hsel arg']
    exact congrArg _ (build_ignores_arg hr hignores arg'.toInt)

/-! ### Illegal words (R97, R98, R99) -/

/-- A word that no row selects is illegal: the row of its `OP`, if there is one, has a must-be-zero field
that is not zero (R97). -/
theorem illegalWord_of_no_row {cw : Word} (h : ∀ r ∈ opcodeMap, ¬ r.selects cw = true) : IllegalWord cw := by
  by_cases hop : ∃ r ∈ opcodeMap, opOf r.pattern = opOf cw
  · obtain ⟨r, hr, hop⟩ := hop
    have hmem : (opOf r.pattern, r.format) ∈ opcodes := (row_mem_opcodes r hr).1
    have hzero : cw &&& mustBeZero r.format ≠ 0#32 := fun hzero =>
      h r hr ((selects_iff hr cw).mpr ⟨hop.symm, hzero⟩)
    exact .inr ⟨_, hmem, hop, hzero⟩
  · left
    rw [opcodes_eq_map, List.forall_mem_map]
    exact fun r hr heq => hop ⟨r, hr, heq⟩

theorem rowsMatching_eq (cw : Word) : rowsMatching cw =
    (opcodeMap.filter (·.selects cw)).map fun r => (r.format.mask, r.pattern) := by
  rw [rowsMatching, maskAndMatch_eq_map, List.filter_map]
  rfl

/-- Settles O4, by whether one row of the opcode map or none selects the word. -/
theorem everyWordIsOneCommandOrIllegal : Obligations.EveryWordIsOneCommandOrIllegal := by
  intro cw arg
  rw [rowsMatching_eq]
  rcases filter_selects_cases cw with hrows | ⟨r, hrows⟩
  · have hill : IllegalWord cw := illegalWord_of_no_row (List.filter_eq_nil_iff.mp hrows)
    exact .inr ⟨hill, decode_of_illegalWord arg hill, by rw [hrows, List.map_nil]⟩
  · obtain ⟨hr, hsel⟩ := List.mem_filter.mp (hrows ▸ List.mem_singleton_self r)
    exact .inl ⟨not_illegalWord_of_selects hr hsel, ⟨_, decode_of_selects hr hsel arg⟩,
      _, by rw [hrows, List.map_singleton]⟩

theorem step_illegal {s : State} {cw arg : Word} {rest : List PortInput}
    (hp : s.port = .command cw arg :: rest) (hill : IllegalWord cw) :
    step s = .next (rejectIllegal cw (s.setPort rest)) := by
  obtain ⟨e, hd⟩ := decode_of_illegalWord arg hill
  simp only [step, takeInput, takeCommand, hp, hd]

/-- R98 lists the `OP` values that no row has. -/
theorem mem_reservedOps_iff : ∀ op : BitVec 6, op ∈ reservedOps ↔ ∀ p ∈ opcodes, p.1 ≠ op := by decide

/-- Settles O5: an illegal word decodes to no command, so the step rejects it. -/
theorem illegalWordIsRejected : Obligations.IllegalWordIsRejected := by
  refine ⟨fun s cw arg rest hp hill => ?_, fun cw hop => .inl ((mem_reservedOps_iff _).mp hop),
    mem_reservedOps_iff⟩
  rw [step_illegal hp hill]
  rfl

/-- Settles O1: the nine words are decoded. -/
theorem sampleWordsDecode : Obligations.SampleWordsDecode := by
  unfold Obligations.SampleWordsDecode
  decide

end Sys2Proof

namespace Sys2Proof.Machine

open Sys2Proof.Claims

/-! ### Reads of a whole bank (R101) -/

/-- A list of commands that each end in the state `f` gives runs through those states in turn. -/
theorem execAll_map {α : Type} {cmd : α → Instr} {f : State → α → State}
    (h : ∀ s a, exec (cmd a) s = .next (f s a)) (as : List α) (s : State) :
    execAll (as.map cmd) s = .next (as.foldl f s) := by
  induction as generalizing s with
  | nil => rfl
  | cons a as ih => simp only [List.map_cons, execAll, h, ih, List.foldl_cons]

theorem exec_anUpdate_id (b : Bank) (c : Chan) (s : State) :
    exec (.anUpdate b c.id) s = .next (updateChannel b c s) := by
  simp [exec, execAnUpdate]

theorem exec_trRefresh_id (c : Chan) (s : State) :
    exec (.trRefresh c.id) s = .next (refreshTrigger c s) := by
  simp [exec, execTrRefresh]

@[simp] theorem updateChannel_trigger (b : Bank) (c : Chan) (s : State) :
    (updateChannel b c s).trigger = s.trigger := by rw [updateChannel_eq]

theorem updateChannel_channel_other {b b' : Bank} {c c' : Chan} (h : (b', c') ≠ (b, c)) (s : State) :
    (updateChannel b c s).channel b' c' = s.channel b' c' := by
  rw [updateChannel_eq]
  exact Banks.get_set_other _ _ h

theorem updateChannel_last (b : Bank) (c : Chan) (s : State) :
    ((updateChannel b c s).channel b c).last = (s.channel b c).current := by
  simp [updateChannel_eq, State.channel]

/-- The result of an update is the channel's new `current` (R120). -/
theorem updateChannel_results (b : Bank) (c : Chan) (s : State) : (updateChannel b c s).results =
    s.results ++ [rspSample ((updateChannel b c s).channel b c).current] := by
  simp [updateChannel_eq, State.channel, sampleResult, rspSample, BitVec.ofNat_toNat]

/-- The channels of bank `b` updated one after another. -/
def updateAll (b : Bank) (cs : List Chan) (s : State) : State :=
  cs.foldl (fun s c => updateChannel b c s) s

@[simp] theorem updateAll_cons (b : Bank) (c : Chan) (cs : List Chan) (s : State) :
    updateAll b (c :: cs) s = updateAll b cs (updateChannel b c s) := rfl

theorem updateAll_trigger (b : Bank) (cs : List Chan) (s : State) :
    (updateAll b cs s).trigger = s.trigger := by
  induction cs generalizing s with
  | nil => rfl
  | cons c cs ih => rw [updateAll_cons, ih, updateChannel_trigger]

theorem updateAll_channel_other {b b' : Bank} {c' : Chan} {cs : List Chan} (h : b' ≠ b ∨ c' ∉ cs)
    (s : State) : (updateAll b cs s).channel b' c' = s.channel b' c' := by
  induction cs generalizing s with
  | nil => rfl
  | cons c cs ih =>
    have hne : (b', c') ≠ (b, c) := by
      rintro ⟨⟩
      simp at h
    rw [updateAll_cons, ih (h.imp_right fun h hmem => h (List.mem_cons_of_mem c hmem)),
      updateChannel_channel_other hne]

theorem updateAll_last {b : Bank} {c : Chan} {cs : List Chan} (hnodup : cs.Nodup) (hc : c ∈ cs)
    (s : State) : ((updateAll b cs s).channel b c).last = (s.channel b c).current := by
  induction cs generalizing s with
  | nil => cases hc
  | cons d cs ih =>
    obtain ⟨hd, hnodup⟩ := List.nodup_cons.mp hnodup
    rw [updateAll_cons]
    by_cases hcd : c = d
    · subst hcd
      rw [updateAll_channel_other (.inr hd), updateChannel_last]
    · have hmem : c ∈ cs := (List.mem_cons.mp hc).resolve_left hcd
      rw [ih hnodup hmem, updateChannel_channel_other (by simp [hcd])]

/-- Updates of different channels return one result each, in order, the channel's new `current`. -/
theorem updateAll_results {b : Bank} {cs : List Chan} (hnodup : cs.Nodup) (s : State) :
    (updateAll b cs s).results =
      s.results ++ cs.map fun c => rspSample ((updateAll b cs s).channel b c).current := by
  induction cs generalizing s with
  | nil => simp [updateAll]
  | cons c cs ih =>
    obtain ⟨hc, hnodup⟩ := List.nodup_cons.mp hnodup
    rw [updateAll_cons, ih hnodup, updateChannel_results, List.map_cons,
      updateAll_channel_other (.inr hc), List.append_assoc, List.singleton_append]

/-- The trigger channels refreshed one after another. -/
def refreshAll (cs : List Chan) (s : State) : State := cs.foldl (fun s c => refreshTrigger c s) s

@[simp] theorem refreshAll_cons (c : Chan) (cs : List Chan) (s : State) :
    refreshAll (c :: cs) s = refreshAll cs (refreshTrigger c s) := rfl

theorem refreshAll_analog (cs : List Chan) (s : State) : (refreshAll cs s).analog = s.analog := by
  induction cs generalizing s with
  | nil => rfl
  | cons c cs ih => rw [refreshAll_cons, ih, refreshTrigger_eq]

theorem refreshAll_results (cs : List Chan) (s : State) :
    (refreshAll cs s).results = s.results ++ List.replicate cs.length 0#32 := by
  induction cs generalizing s with
  | nil => simp [refreshAll]
  | cons c cs ih => simp [ih, refreshTrigger_eq, List.replicate_succ]

/-- A refresh makes its channel fresh, and no other stale. -/
theorem refreshAll_fresh {c : Chan} {cs : List Chan} {s : State}
    (h : c ∈ cs ∨ (s.trig c).fresh = true) : ((refreshAll cs s).trig c).fresh = true := by
  induction cs generalizing s with
  | nil => exact h.resolve_left List.not_mem_nil
  | cons d cs ih =>
    have hexec := exec_trRefresh_id d s
    rw [refreshAll_cons]
    apply ih
    rcases h with hmem | hfresh
    · rcases List.mem_cons.mp hmem with rfl | hmem
      · exact .inr (trig_fresh_after_refresh hexec)
      · exact .inl hmem
    · exact .inr (exec_keeps_trig_fresh hexec (by simp) c hfresh)

/-- Settles O54: a read of a whole bank is the update, or the refresh, of its four different channels in
turn. -/
theorem pseudoCommandsExpand : Obligations.PseudoCommandsExpand := by
  refine ⟨fun b ch => ⟨rfl, rfl, rfl, rfl, rfl, rfl⟩, fun b s => ?_, fun s => ?_⟩
  · exact ⟨updateAll b Chan.all s, execAll_map (fun s c => exec_anUpdate_id b c s) Chan.all s,
      updateAll_results Chan.nodup_all s, fun c => updateAll_last Chan.nodup_all c.mem_all s,
      fun b' c hb => updateAll_channel_other (.inl hb) s, updateAll_trigger b Chan.all s⟩
  · exact ⟨refreshAll Chan.all s, execAll_map (fun s c => exec_trRefresh_id c s) Chan.all s,
      refreshAll_results Chan.all s, fun c => refreshAll_fresh (.inl c.mem_all),
      refreshAll_analog Chan.all s⟩

end Sys2Proof.Machine
end

section
/-! SUPPORT. The analog channels (family 41_analog): the words of format A, one equation per command and
kind of id, what a command does as a function of its channel, and the exchange of the two banks. -/

namespace Sys2Proof

open Sys2Proof.Claims

/-- A channel written back as it was read is as it was. -/
@[simp] theorem Banks.set_get {α : Type} (k : Banks α) (b : Bank) (c : Chan) : k.set b c (k.get b c) = k := by
  cases b <;> cases c <;> rfl

/-! ### Words of format A (R91, R92) -/

/-- A command that does not use `ARG` is decoded from its word whatever `ARG` is (R90). -/
theorem decode_encode_any_arg {i : Instr} (hi : i.wellFormed = true) (hu : i.usesArg = false) (arg : Word) :
    decode (encode i).1 arg = .ok i := by
  obtain ⟨-, -, -, hany⟩ := encodeOfDecodeIsIdentity _ _ i (decodeOfEncodeIsIdentity i hi)
  exact hany hu arg

theorem wordA_eq (base : Word) (b : Bank) (ch : Nat) :
    wordA base b ch = base ||| bankBits b ||| chanBits ch := by cases b <;> rfl

/-- The word of format A that a command is encoded as is decoded as that command. -/
theorem decode_wordA (i : Instr) {base : Word} {b : Bank} {ch : Nat}
    (hword : (encode i).1 = base ||| bankBits b ||| chanBits ch) (hi : i.wellFormed = true)
    (hu : i.usesArg = false) (arg : Word) : decode (wordA base b ch) arg = .ok i := by
  rw [wordA_eq, ← hword, decode_encode_any_arg hi hu]

end Sys2Proof

namespace Sys2Proof.Machine

open Sys2Proof.Claims

/-! ### Invalid ids (R126) -/

section
variable (b : Bank) {ch : Nat} (h : chan? ch = none) (s : State)
include h

theorem exec_anUpdate_invalid :
    exec (.anUpdate b ch) s = .next (s.reject (.invalidId 0x08#6 ch) errInvalidId) := by
  simp only [exec, execAnUpdate, h]

theorem exec_anChanged_invalid :
    exec (.anChanged b ch) s = .next (s.reject (.invalidId 0x09#6 ch) (boolResult false)) := by
  simp only [exec, execAnChanged, h]

theorem exec_anRaw_invalid :
    exec (.anRaw b ch) s = .next (s.reject (.invalidId 0x0A#6 ch) errInvalidId) := by
  simp only [exec, execAnRaw, h]

theorem exec_anCur_invalid :
    exec (.anCur b ch) s = .next (s.reject (.invalidId 0x0B#6 ch) errInvalidId) := by
  simp only [exec, execAnCur, h]

theorem exec_anLast_invalid :
    exec (.anLast b ch) s = .next (s.reject (.invalidId 0x0C#6 ch) errInvalidId) := by
  simp only [exec, execAnLast, h]

end

theorem mem_analogCommands {b : Bank} {ch : Nat} {i : Instr} : i ∈ analogCommands b ch ↔
    i = .anUpdate b ch ∨ i = .anChanged b ch ∨ i = .anRaw b ch ∨ i = .anCur b ch ∨ i = .anLast b ch := by
  simp [analogCommands]

/-- Settles O11, one rejection per command. -/
theorem invalidAnalogIdIsNoOp : Obligations.InvalidAnalogIdIsNoOp := by
  intro b ch s hch i hi
  have hnone : chan? ch = none := chan?_eq_none.mpr hch
  rcases mem_analogCommands.mp hi with rfl | rfl | rfl | rfl | rfl
  · exact exec_anUpdate_invalid b hnone s
  · rw [if_pos rfl]
    exact exec_anChanged_invalid b hnone s
  · exact exec_anRaw_invalid b hnone s
  · exact exec_anCur_invalid b hnone s
  · exact exec_anLast_invalid b hnone s

/-! ### Valid ids (R120 to R125) -/

theorem exec_anRaw_id (b : Bank) (c : Chan) (s : State) : exec (.anRaw b c.id) s =
    .next ((s.setEnv s.env.afterRaw).respond (sampleResult (s.env.rawAnswer b c))) := by
  simp [exec, execAnRaw, readRaw]

theorem exec_anCur_id (b : Bank) (c : Chan) (s : State) :
    exec (.anCur b c.id) s = .next (s.respond (sampleResult (s.channel b c).current)) := by
  simp [exec, execAnCur]

theorem exec_anLast_id (b : Bank) (c : Chan) (s : State) :
    exec (.anLast b c.id) s = .next (s.respond (sampleResult (s.channel b c).last)) := by
  simp [exec, execAnLast]

theorem sampleResult_eq (x : Sample) : sampleResult x = rspSample x := by
  rw [sampleResult, rspSample, BitVec.ofNat_toNat]

theorem rspSample_injective : rspSample.Injective := by
  intro x y h
  have hx := x.isLt
  have hy := y.isLt
  have hnat : x.toNat % 2 ^ 32 = y.toNat % 2 ^ 32 := by simpa [rspSample] using congrArg BitVec.toNat h
  exact BitVec.eq_of_toNat_eq (by omega)

/-- A settled sample is the answer of `ReadRaw` (R61). -/
theorem Env.rawAnswer_of_settled {e : Env} {x : Sample} {rest : List Sample} (h : e.raw = x :: rest)
    (b : Bank) (c : Chan) : e.rawAnswer b c = x := by rw [rawAnswer, h, List.headD_cons]

/-- A settled sample does not depend on the bank (R128). -/
theorem Env.rawAnswer_bank {e : Env} (h : e.raw ≠ []) (b b' : Bank) (c : Chan) :
    e.rawAnswer b c = e.rawAnswer b' c := by
  obtain ⟨x, rest, h⟩ := List.exists_cons_of_ne_nil h
  rw [rawAnswer_of_settled h, rawAnswer_of_settled h]

/-- A settled report is the answer of `SmoothUpdate` (R62). -/
theorem Env.smoothAnswer_of_settled {e : Env} {p : Sample × Bool} {rest : List (Sample × Bool)}
    (h : e.smooth = p :: rest) (b : Bank) (c : Chan) (k : Collab Sample) : e.smoothAnswer b c k = p := by
  rw [smoothAnswer, h, List.headD_cons]

/-- Settles O8: a valid update feeds the sample to the collaborator and takes its report. -/
theorem anUpdateShiftsHistory : Obligations.AnUpdateShiftsHistory := by
  refine ⟨fun b ch arg hch => decode_wordA (.anUpdate b ch) rfl (decide_eq_true hch) rfl arg,
    fun b _ s hch => exec_anUpdate_invalid b (chan?_eq_none.mpr hch) s, fun b c s => ?_⟩
  let raw := s.env.rawAnswer b c
  let report := s.env.afterRaw.smoothAnswer b c (feedCollab (s.channel b c).smooth raw)
  refine ⟨raw, report.1, report.2, ?_, fun x rest h => Env.rawAnswer_of_settled h b c,
    fun x p rest h => ?_⟩
  · rw [exec_anUpdate_id, updateChannel_eq, ← sampleResult_eq]
    rfl
  · have hreport : report = (x, p) := Env.smoothAnswer_of_settled (e := s.env.afterRaw) h b c _
    simp [hreport]

/-- A command that looks up a latch answers a query of it (R41). -/
theorem answersQuery_of_exec {i : Instr} {s : State} {fresh latch : Bool}
    (h : exec i s = .next (answerQuery fresh latch s)) : AnswersQuery i s fresh latch := by
  refine ⟨?_, ?_, ?_⟩
  · rintro rfl
    exact h
  · rintro rfl hlatch
    exact h.trans (congrArg _ (answerQuery_latch latch hlatch))
  · rintro rfl hdraw
    have hdrawn : AnswersFromEnv i s (tookStale s.env) (rspBool s.env.staleAnswer) :=
      h.trans (congrArg _ (answerQuery_draw latch hdraw))
    refine ⟨⟨_, hdrawn⟩, fun a rest hstale => ?_⟩
    have hsettled : s.env.staleAnswer = a := by rw [Env.staleAnswer, hstale, List.headD_cons]
    rwa [hsettled] at hdrawn

/-- Settles O9: a valid `an.changed` looks up the channel's latch. -/
theorem anChangedReportsLatch : Obligations.AnChangedReportsLatch :=
  ⟨fun b ch arg hch => decode_wordA (.anChanged b ch) rfl (decide_eq_true hch) rfl arg,
    fun b _ s hch => exec_anChanged_invalid b (chan?_eq_none.mpr hch) s,
    fun b c s => answersQuery_of_exec (exec_anChanged_id b c s)⟩

/-- Settles O10: each read answers from the state or from one sample. -/
theorem analogReadsChangeNothing : Obligations.AnalogReadsChangeNothing := by
  refine ⟨fun b ch arg hch => ?_, fun b ch s hch => ?_, fun b c s => ?_⟩
  · have hfits : chanEncodable ch = true := decide_eq_true hch
    exact ⟨decode_wordA (.anRaw b ch) rfl hfits rfl arg, decode_wordA (.anCur b ch) rfl hfits rfl arg,
      decode_wordA (.anLast b ch) rfl hfits rfl arg⟩
  · have hnone : chan? ch = none := chan?_eq_none.mpr hch
    exact ⟨exec_anRaw_invalid b hnone s, exec_anCur_invalid b hnone s, exec_anLast_invalid b hnone s⟩
  · have hraw : AnswersFromEnv (.anRaw b c.id) s (tookRaw s.env) (rspSample (s.env.rawAnswer b c)) :=
      sampleResult_eq _ ▸ exec_anRaw_id b c s
    refine ⟨⟨_, hraw⟩, fun x rest hsettled => ?_, sampleResult_eq _ ▸ exec_anCur_id b c s,
      sampleResult_eq _ ▸ exec_anLast_id b c s⟩
    rwa [Env.rawAnswer_of_settled hsettled] at hraw

/-- Settles O14: the first update leaves `v` in `current`, no other command writes it, and the second update
moves it to `last`. -/
theorem repeatedUpdateFillsBothRegisters : Obligations.RepeatedUpdateFillsBothRegisters := by
  intro b c v between s s₁ s₂ s₃ hfirst hr₁ hbetween hrun hsecond hr₂
  have current_eq {s t : State} (h : exec (.anUpdate b c.id) s = .next t)
      (hr : t.results = s.results ++ [rspSample v]) : (t.channel b c).current = v := by
    cases (exec_anUpdate_id b c s).symm.trans h
    rw [updateChannel_results, List.append_cancel_left_eq, List.singleton_inj] at hr
    exact rspSample_injective hr
  have hkept : (s₂.channel b c).current = v :=
    execAll_keeps (P := fun s => (s.channel b c).current = v)
      (fun i hi s t h hs => (onlyUpdateWritesAnalogRegisters i s t h b c (hbetween i hi)).1.trans hs)
      hrun (current_eq hfirst hr₁)
  refine ⟨current_eq hsecond hr₂, ?_⟩
  cases (exec_anUpdate_id b c s₂).symm.trans hsecond
  rw [updateChannel_last, hkept]

/-! ### Locality (R127) -/

/-- What a query of a latch leaves of the environment, and its answer (R41). -/
def queryAnswer (fresh latch : Bool) (p : StalePolicy) (e : Env) : Env × Word :=
  if fresh = false ∧ p = .draw then (e.afterStale, boolResult e.staleAnswer) else (e, boolResult latch)

theorem answerQuery_eq (fresh latch : Bool) (s : State) : answerQuery fresh latch s =
    (s.setEnv (queryAnswer fresh latch s.cfg.stalePolicy s.env).1).respond
      (queryAnswer fresh latch s.cfg.stalePolicy s.env).2 := by
  cases fresh
  · cases h : s.cfg.stalePolicy
    · exact answerQuery_draw latch h
    · exact answerQuery_latch latch h
  · simp [answerQuery_fresh, queryAnswer, State.setEnv]

/-- What a command makes of one analog channel and of the environment, and its result. -/
structure ChannelEffect where
  channel : AnalogChannel
  env     : Env
  result  : Word

/-- The effect takes place on channel `(b, c)`, and nothing else changes. -/
def ChannelEffect.apply (f : ChannelEffect) (b : Bank) (c : Chan) (s : State) : State :=
  ((s.setChannel b c f.channel).setEnv f.env).respond f.result

/-- The effect of a valid `an.update` (R120). -/
def updateEffect (b : Bank) (c : Chan) (x : AnalogChannel) (e : Env) : ChannelEffect :=
  let k      := feedCollab x.smooth (e.rawAnswer b c)
  let report := e.afterRaw.smoothAnswer b c k
  { channel := { current := report.1, last := x.current, chg := report.2, smooth := k, fresh := true }
    env     := e.afterRaw.afterSmooth
    result  := sampleResult report.1 }

theorem updateChannel_eq_apply (b : Bank) (c : Chan) (s : State) :
    updateChannel b c s = (updateEffect b c (s.channel b c) s.env).apply b c s := by
  rw [updateChannel_eq]
  rfl

/-- The command is an effect on channel `(b, c)` that depends on this channel, the parameters and the
environment only. -/
def LocalTo (b : Bank) (c : Chan) (i : Instr) : Prop :=
  ∃ f : AnalogChannel → Params → Env → ChannelEffect,
    ∀ s, exec i s = .next ((f (s.channel b c) s.cfg s.env).apply b c s)

/-- A read of the channel, the parameters and the environment is local. -/
theorem localTo_of_read {b : Bank} {c : Chan} {i : Instr}
    (answer : AnalogChannel → Params → Env → Env × Word)
    (h : ∀ s, exec i s = .next ((s.setEnv (answer (s.channel b c) s.cfg s.env).1).respond
      (answer (s.channel b c) s.cfg s.env).2)) : LocalTo b c i := by
  refine ⟨fun x p e => ⟨x, (answer x p e).1, (answer x p e).2⟩, fun s => ?_⟩
  have hself : s.setChannel b c (s.channel b c) = s := by simp [State.setChannel, State.channel]
  rw [h s, ChannelEffect.apply, hself]

theorem localTo_of_mem {b : Bank} {c : Chan} {i : Instr} (hi : i ∈ analogCommands b c.id) :
    LocalTo b c i := by
  rcases mem_analogCommands.mp hi with rfl | rfl | rfl | rfl | rfl
  · exact ⟨fun x _ e => updateEffect b c x e,
      fun s => (exec_anUpdate_id b c s).trans (congrArg _ (updateChannel_eq_apply b c s))⟩
  · exact localTo_of_read (fun x p e => queryAnswer x.fresh x.chg p.stalePolicy e)
      fun s => (exec_anChanged_id b c s).trans (congrArg _ (answerQuery_eq _ _ s))
  · exact localTo_of_read (fun _ _ e => (e.afterRaw, sampleResult (e.rawAnswer b c))) (exec_anRaw_id b c)
  · exact localTo_of_read (fun x _ e => (e, sampleResult x.current)) (exec_anCur_id b c)
  · exact localTo_of_read (fun x _ e => (e, sampleResult x.last)) (exec_anLast_id b c)

/-- Settles O12: an analog command is an effect on its channel that no other part of the state enters. -/
theorem analogCommandsAreChannelLocal : Obligations.AnalogCommandsAreChannelLocal := by
  intro b c i s hi
  obtain ⟨f, hf⟩ := localTo_of_mem hi
  refine ⟨_, _, hf s, rfl, fun b' c' hne => Banks.get_set_other _ _ hne, rfl, sameButChannels_refl s,
    fun s' hchannel hcfg henv => ⟨_, hf s', ?_, ?_⟩⟩
  · rw [hchannel, hcfg, henv]
    rfl
  · rw [hchannel, hcfg, henv]
    exact (Banks.get_set_same _ _ _ _).trans (Banks.get_set_same _ _ _ _).symm

/-! ### The two banks (R128) -/

@[simp] theorem swapBanks_channel (b : Bank) (c : Chan) (s : State) :
    (swapBanks s).channel (otherBank b) c = s.channel b c := by cases b <;> rfl

theorem swapBanks_apply (f : ChannelEffect) (b : Bank) (c : Chan) (s : State) :
    swapBanks (f.apply b c s) = f.apply (otherBank b) c (swapBanks s) := by cases b <;> rfl

/-- With its two answers settled an update has the same effect in every bank. -/
theorem updateEffect_of_settled {e : Env} (hraw : e.raw ≠ []) (hsmooth : e.smooth ≠ []) (b b' : Bank)
    (c : Chan) (x : AnalogChannel) : updateEffect b c x e = updateEffect b' c x e := by
  obtain ⟨p, rest, hsmooth⟩ := List.exists_cons_of_ne_nil hsmooth
  have hreport (b : Bank) (k : Collab Sample) : e.afterRaw.smoothAnswer b c k = p :=
    Env.smoothAnswer_of_settled (e := e.afterRaw) hsmooth b c k
  simp only [updateEffect, Env.rawAnswer_bank hraw b b', hreport]

theorem swapBanks_updateChannel {s : State} (hraw : s.env.raw ≠ []) (hsmooth : s.env.smooth ≠ [])
    (b : Bank) (c : Chan) :
    swapBanks (updateChannel b c s) = updateChannel (otherBank b) c (swapBanks s) := by
  rw [updateChannel_eq_apply, updateChannel_eq_apply, swapBanks_apply, swapBanks_channel,
    updateEffect_of_settled hraw hsmooth b (otherBank b)]
  rfl

theorem swapBanks_answerQuery (fresh latch : Bool) (s : State) :
    swapBanks (answerQuery fresh latch s) = answerQuery fresh latch (swapBanks s) := by
  rw [answerQuery_eq, answerQuery_eq]
  rfl

/-- A command has one outcome, so what is shown of the outcome `u` holds of whichever it answers. -/
theorem exec_swapBanks_of_exec {i i' : Instr} {s t u : State} (h : exec i s = .next u)
    (h' : exec i' (swapBanks s) = .next (swapBanks u)) (ht : exec i s = .next t) :
    exec i' (swapBanks s) = .next (swapBanks t) := by
  cases h.symm.trans ht
  exact h'

/-- Settles O13: an invalid id is rejected in either bank; on a valid one each command does to the exchanged
state the exchange of what it does to the state. -/
theorem banksBehaveAlike : Obligations.BanksBehaveAlike := by
  intro b ch s t hraw hsmooth p hp ht
  simp only [analogCommands, List.zip_cons_cons, List.zip_nil_left, List.mem_cons, List.not_mem_nil,
    or_false] at hp
  cases hc : chan? ch with
  | none =>
    rcases hp with rfl | rfl | rfl | rfl | rfl
    · exact exec_swapBanks_of_exec (exec_anUpdate_invalid b hc s) (exec_anUpdate_invalid _ hc _) ht
    · exact exec_swapBanks_of_exec (exec_anChanged_invalid b hc s) (exec_anChanged_invalid _ hc _) ht
    · exact exec_swapBanks_of_exec (exec_anRaw_invalid b hc s) (exec_anRaw_invalid _ hc _) ht
    · exact exec_swapBanks_of_exec (exec_anCur_invalid b hc s) (exec_anCur_invalid _ hc _) ht
    · exact exec_swapBanks_of_exec (exec_anLast_invalid b hc s) (exec_anLast_invalid _ hc _) ht
  | some c =>
    obtain rfl := id_of_chan? hc
    rcases hp with rfl | rfl | rfl | rfl | rfl
    · refine exec_swapBanks_of_exec (exec_anUpdate_id b c s) ?_ ht
      rw [exec_anUpdate_id, swapBanks_updateChannel hraw hsmooth]
    · refine exec_swapBanks_of_exec (exec_anChanged_id b c s) ?_ ht
      rw [exec_anChanged_id, swapBanks_answerQuery, swapBanks_channel]
    · refine exec_swapBanks_of_exec (exec_anRaw_id b c s) ?_ ht
      rw [exec_anRaw_id, Env.rawAnswer_bank hraw b (otherBank b)]
      rfl
    · refine exec_swapBanks_of_exec (exec_anCur_id b c s) ?_ ht
      rw [exec_anCur_id, swapBanks_channel]
      rfl
    · refine exec_swapBanks_of_exec (exec_anLast_id b c s) ?_ ht
      rw [exec_anLast_id, swapBanks_channel]
      rfl

end Sys2Proof.Machine
end

section
/-! SUPPORT. The trigger channels (family 42_trigger): the words of format T, one equation per command and
kind of id, and what a command does as a function of its channel. -/

namespace Sys2Proof

open Sys2Proof.Claims

/-- A channel written back as it was read is as it was. -/
@[simp] theorem Four.set_get {α : Type} (f : Four α) (c : Chan) : f.set c (f.get c) = f := by cases c <;> rfl

/-- The word of format T that a command is encoded as is decoded as that command. -/
theorem decode_wordT (i : Instr) {base : Word} {ch : Nat} (hword : (encode i).1 = wordT base ch)
    (hi : i.wellFormed = true) (hu : i.usesArg = false) (arg : Word) : decode (wordT base ch) arg = .ok i :=
  hword ▸ decode_encode_any_arg hi hu arg

end Sys2Proof

namespace Sys2Proof.Machine

open Sys2Proof.Claims

/-- Settles O22, by the outcomes of a command for one trigger channel. -/
theorem onlyRefreshWritesTriggerLatches : Obligations.OnlyRefreshWritesTriggerLatches := by
  intro i s t h c hi
  rcases (ending_of_exec h).trig_cases c with heq | ⟨-, heq⟩ | ⟨hrefresh, -⟩
  · simp [heq]
  · simp [heq]
  · exact absurd hrefresh hi

/-! ### Invalid ids (R147) -/

section
variable {ch : Nat} (h : chan? ch = none) (s : State)
include h

theorem exec_trRefresh_invalid :
    exec (.trRefresh ch) s = .next (s.reject (.invalidId 0x10#6 ch) errInvalidId) := by
  simp only [exec, execTrRefresh, h]

theorem exec_trRose_invalid :
    exec (.trRose ch) s = .next (s.reject (.invalidId 0x11#6 ch) (boolResult false)) := by
  simp only [exec, execTrRose, h]

theorem exec_trFell_invalid :
    exec (.trFell ch) s = .next (s.reject (.invalidId 0x12#6 ch) (boolResult false)) := by
  simp only [exec, execTrFell, h]

theorem exec_trHigh_invalid :
    exec (.trHigh ch) s = .next (s.reject (.invalidId 0x13#6 ch) (boolResult false)) := by
  simp only [exec, execTrHigh, h]

theorem exec_trLow_invalid :
    exec (.trLow ch) s = .next (s.reject (.invalidId 0x14#6 ch) (boolResult false)) := by
  simp only [exec, execTrLow, h]

theorem exec_trRaw_invalid :
    exec (.trRaw ch) s = .next (s.reject (.invalidId 0x15#6 ch) errInvalidId) := by
  simp only [exec, execTrRaw, h]

end

theorem mem_triggerCommands {ch : Nat} {i : Instr} : i ∈ triggerCommands ch ↔ i = .trRefresh ch ∨
    i = .trRose ch ∨ i = .trFell ch ∨ i = .trHigh ch ∨ i = .trLow ch ∨ i = .trRaw ch := by
  simp [triggerCommands]

/-- Settles O19, one rejection per command. -/
theorem invalidTriggerIdIsNoOp : Obligations.InvalidTriggerIdIsNoOp := by
  intro ch s hch i hi
  have hnone : chan? ch = none := chan?_eq_none.mpr hch
  rcases mem_triggerCommands.mp hi with rfl | rfl | rfl | rfl | rfl | rfl
  · rw [if_pos (.inl rfl)]
    exact exec_trRefresh_invalid hnone s
  · exact exec_trRose_invalid hnone s
  · exact exec_trFell_invalid hnone s
  · exact exec_trHigh_invalid hnone s
  · exact exec_trLow_invalid hnone s
  · rw [if_pos (.inr rfl)]
    exact exec_trRaw_invalid hnone s

/-! ### Valid ids (R140 to R145) -/

theorem exec_trRaw_id (c : Chan) (s : State) : exec (.trRaw c.id) s =
    .next ((s.setEnv s.env.afterPin).respond (boolResult (s.env.pinAnswer c))) := by
  simp [exec, execTrRaw, readPin]

/-- A settled time is the answer of `NowMs` (R65). -/
theorem Env.clockAnswer_of_settled {e : Env} {x : Word} {rest : List Word} (h : e.clock = x :: rest) :
    e.clockAnswer = x := by rw [clockAnswer, h, List.headD_cons]

/-- A settled report is the answer of `DebounceRefresh` (R63). -/
theorem Env.debounceAnswer_of_settled {e : Env} {x : DebounceReport} {rest : List DebounceReport}
    (h : e.debounce = x :: rest) (c : Chan) (k : Collab Word) : e.debounceAnswer c k = x := by
  rw [debounceAnswer, h, List.headD_cons]

/-- A settled level is the answer of `ReadPin` (R64). -/
theorem Env.pinAnswer_of_settled {e : Env} {p : Bool} {rest : List Bool} (h : e.pin = p :: rest)
    (c : Chan) : e.pinAnswer c = p := by rw [pinAnswer, h, List.headD_cons]

/-- Settles O16: a valid refresh feeds the time to the collaborator and latches its report. -/
theorem trRefreshLatchesReport : Obligations.TrRefreshLatchesReport :=
  ⟨fun ch arg hch => decode_wordT (.trRefresh ch) rfl (decide_eq_true hch) rfl arg,
    fun _ s hch => exec_trRefresh_invalid (chan?_eq_none.mpr hch) s,
    fun c s => ⟨_, _, (exec_trRefresh_id c s).trans (congrArg _ (refreshTrigger_eq c s)),
      fun _ _ h => Env.clockAnswer_of_settled h,
      fun _ _ h => Env.debounceAnswer_of_settled (e := s.env.afterClock) h c _⟩⟩

/-- Settles O17: each valid query looks up a latch, an edge query the other edge's and `tr.high` the
inverted level. -/
theorem triggerQueriesInvertPolarity : Obligations.TriggerQueriesInvertPolarity := by
  refine ⟨fun ch arg hch => ?_, fun ch s hch => ?_, fun c s => ?_⟩
  · have hfits : chanEncodable ch = true := decide_eq_true hch
    exact ⟨decode_wordT (.trRose ch) rfl hfits rfl arg, decode_wordT (.trFell ch) rfl hfits rfl arg,
      decode_wordT (.trHigh ch) rfl hfits rfl arg, decode_wordT (.trLow ch) rfl hfits rfl arg⟩
  · have hnone : chan? ch = none := chan?_eq_none.mpr hch
    exact ⟨exec_trRose_invalid hnone s, exec_trFell_invalid hnone s, exec_trHigh_invalid hnone s,
      exec_trLow_invalid hnone s⟩
  · exact ⟨answersQuery_of_exec (exec_trRose_id c s), answersQuery_of_exec (exec_trFell_id c s),
      answersQuery_of_exec (exec_trHigh_id c s), answersQuery_of_exec (exec_trLow_id c s)⟩

/-- Settles O18: a valid read answers the pin's level as it is. -/
theorem trRawReturnsPinLevel : Obligations.TrRawReturnsPinLevel := by
  refine ⟨fun ch arg hch => decode_wordT (.trRaw ch) rfl (decide_eq_true hch) rfl arg,
    fun _ s hch => exec_trRaw_invalid (chan?_eq_none.mpr hch) s, fun c s => ?_⟩
  have hpin : AnswersFromEnv (.trRaw c.id) s (tookPin s.env) (rspBool (s.env.pinAnswer c)) :=
    exec_trRaw_id c s
  refine ⟨⟨_, hpin⟩, fun p rest hsettled => ?_⟩
  rwa [Env.pinAnswer_of_settled hsettled] at hpin

/-! ### Levels and edges (R148) -/

/-- After a refresh with a settled report the channel is fresh and holds the report. -/
theorem trig_after_refresh {c : Chan} {s t : State} {r : DebounceReport} {rest : List DebounceReport}
    (hsettled : s.env.debounce = r :: rest) (h : exec (.trRefresh c.id) s = .next t) :
    (t.trig c).fresh = true ∧ (t.trig c).riseE = r.rise ∧ (t.trig c).fallE = r.fall := by
  obtain ⟨-, -, hrefresh⟩ := trRefreshLatchesReport
  obtain ⟨time, r', hexec, -, hreport⟩ := hrefresh c s
  obtain rfl := hreport r rest hsettled
  cases hexec.symm.trans h
  simp [State.trig]

/-- A stale query draws the settled answer, and nothing else changes (R41). -/
theorem answersFromEnv_of_staleQuery {i : Instr} {s : State} {p : Bool} {rest : List Bool}
    (hstale : staleQuery i s = true) (hdraw : s.cfg.stalePolicy = .draw)
    (hsettled : s.env.stale = p :: rest) : AnswersFromEnv i s (tookStale s.env) (rspBool p) := by
  obtain ⟨latch, hexec⟩ := exec_of_staleQuery hstale
  obtain ⟨-, -, hdrawn⟩ := answersQuery_of_exec (hexec s.env)
  exact (hdrawn rfl hdraw).2 p rest hsettled

/-- Whether a query is stale depends on the channels only. -/
theorem staleQuery_congr {i : Instr} {s t : State} (ha : t.analog = s.analog) (ht : t.trigger = s.trigger) :
    staleQuery i t = staleQuery i s := by
  cases i <;> simp [staleQuery, staleAnalog, staleTrigger, State.channel, State.trig, ha, ht]

theorem execAll_pair {i j : Instr} {s t u : State} (hi : exec i s = .next t) (hj : exec j t = .next u) :
    execAll [i, j] s = .next u := by simp only [execAll, hi, hj]

/-- Settles O20: a fresh query answers its latch, and of two stale queries each draws an answer of its own. -/
theorem levelsComplementaryAndEdgesSwapped : Obligations.LevelsComplementaryAndEdgesSwapped := by
  obtain ⟨-, -, hqueries⟩ := triggerQueriesInvertPolarity
  refine ⟨fun c s hfresh => ?_, fun c s t r rest hsettled h => ?_,
    fun i j s p q rest hi hj hdraw hsettled => ?_⟩
  · obtain ⟨-, -, hhigh, hlow⟩ := hqueries c s
    exact ⟨_, hhigh.1 hfresh, (Bool.not_not (s.trig c).lvlE).symm ▸ hlow.1 hfresh⟩
  · obtain ⟨hfresh, hrise, hfall⟩ := trig_after_refresh hsettled h
    obtain ⟨hrose, hfell, -, -⟩ := hqueries c t
    exact ⟨hfall ▸ hrose.1 hfresh, hrise ▸ hfell.1 hfresh⟩
  · have hfirst := answersFromEnv_of_staleQuery hi hdraw hsettled
    have hsecond := answersFromEnv_of_staleQuery
      (s := { s with env := tookStale s.env, results := s.results ++ [rspBool p] })
      ((staleQuery_congr rfl rfl).trans hj) hdraw (congrArg List.tail hsettled)
    exact ⟨_, execAll_pair hfirst hsecond, List.append_assoc _ _ _⟩

/-! ### Locality (R149) -/

/-- What a command makes of one trigger channel and of the environment, and its result. -/
structure TriggerEffect where
  channel : TriggerChannel
  env     : Env
  result  : Word

/-- The effect takes place on channel `c`, and nothing else changes. -/
def TriggerEffect.apply (f : TriggerEffect) (c : Chan) (s : State) : State :=
  ((s.setTrig c f.channel).setEnv f.env).respond f.result

/-- The effect of a valid `tr.refresh` (R140). -/
def refreshEffect (c : Chan) (x : TriggerChannel) (e : Env) : TriggerEffect :=
  let k      := feedCollab x.deb e.clockAnswer
  let report := e.afterClock.debounceAnswer c k
  { channel := { riseE := report.rise, fallE := report.fall, lvlE := report.level, deb := k, fresh := true }
    env     := e.afterClock.afterDebounce
    result  := 0#32 }

theorem refreshTrigger_eq_apply (c : Chan) (s : State) :
    refreshTrigger c s = (refreshEffect c (s.trig c) s.env).apply c s := by
  rw [refreshTrigger_eq]
  rfl

/-- The command is an effect on trigger channel `c` that depends on this channel, the parameters and the
environment only. -/
def LocalToTrig (c : Chan) (i : Instr) : Prop :=
  ∃ f : TriggerChannel → Params → Env → TriggerEffect,
    ∀ s, exec i s = .next ((f (s.trig c) s.cfg s.env).apply c s)

/-- A read of the channel, the parameters and the environment is local. -/
theorem localToTrig_of_read {c : Chan} {i : Instr} (answer : TriggerChannel → Params → Env → Env × Word)
    (h : ∀ s, exec i s = .next ((s.setEnv (answer (s.trig c) s.cfg s.env).1).respond
      (answer (s.trig c) s.cfg s.env).2)) : LocalToTrig c i := by
  refine ⟨fun x p e => ⟨x, (answer x p e).1, (answer x p e).2⟩, fun s => ?_⟩
  have hself : s.setTrig c (s.trig c) = s := by simp [State.setTrig, State.trig]
  rw [h s, TriggerEffect.apply, hself]

/-- A query of a latch of the channel is local. -/
theorem localToTrig_of_query {c : Chan} {i : Instr} (latch : TriggerChannel → Bool)
    (h : ∀ s, exec i s = .next (answerQuery (s.trig c).fresh (latch (s.trig c)) s)) : LocalToTrig c i :=
  localToTrig_of_read (fun x p e => queryAnswer x.fresh (latch x) p.stalePolicy e)
    fun s => (h s).trans (congrArg _ (answerQuery_eq _ _ s))

theorem localToTrig_of_mem {c : Chan} {i : Instr} (hi : i ∈ triggerCommands c.id) : LocalToTrig c i := by
  rcases mem_triggerCommands.mp hi with rfl | rfl | rfl | rfl | rfl | rfl
  · exact ⟨fun x _ e => refreshEffect c x e,
      fun s => (exec_trRefresh_id c s).trans (congrArg _ (refreshTrigger_eq_apply c s))⟩
  · exact localToTrig_of_query (·.fallE) (exec_trRose_id c)
  · exact localToTrig_of_query (·.riseE) (exec_trFell_id c)
  · exact localToTrig_of_query (!·.lvlE) (exec_trHigh_id c)
  · exact localToTrig_of_query (·.lvlE) (exec_trLow_id c)
  · exact localToTrig_of_read (fun _ _ e => (e.afterPin, boolResult (e.pinAnswer c))) (exec_trRaw_id c)

/-- Settles O21: a trigger command is an effect on its channel that no other part of the state enters. -/
theorem triggerCommandsAreChannelLocal : Obligations.TriggerCommandsAreChannelLocal := by
  intro c i s hi
  obtain ⟨f, hf⟩ := localToTrig_of_mem hi
  refine ⟨_, _, hf s, rfl, fun c' hne => Four.get_set_other _ _ hne, rfl, sameButChannels_refl s,
    fun s' htrig hcfg henv => ⟨_, hf s', ?_, ?_⟩⟩
  · rw [htrig, hcfg, henv]
    rfl
  · rw [htrig, hcfg, henv]
    exact (Four.get_set_same _ _ _).trans (Four.get_set_same _ _ _).symm

end Sys2Proof.Machine
end

section
/-! SUPPORT. The scale commands (family 43_scale): each command answers its map, so what it returns is what the
map computes; the bounds, the order and the corner cases of the three maps. -/

namespace Sys2Proof.Machine

open Sys2Proof.Claims

/-! ### The clamp (R11) -/

theorem clampTo_bounds (v : Int) {lo hi : Int} (h : lo ≤ hi) : lo ≤ clampTo v lo hi ∧ clampTo v lo hi ≤ hi :=
  clamp_eq_clampTo v h ▸ clamp_bounds v h

theorem clampTo_of_mem {v lo hi : Int} (hlo : lo ≤ v) (hhi : v ≤ hi) : clampTo v lo hi = v := by
  rw [clampTo, max_eq_left hlo, min_eq_left hhi]

theorem clampTo_clampTo (v : Int) {lo hi : Int} (h : lo ≤ hi) :
    clampTo (clampTo v lo hi) lo hi = clampTo v lo hi :=
  clampTo_of_mem (clampTo_bounds v h).1 (clampTo_bounds v h).2

theorem clampTo_mono (lo hi : Int) : Monotone fun v => clampTo v lo hi :=
  fun _ _ h => min_le_min_right hi (max_le_max_right lo h)

/-! ### The three maps, on the clamped operand (R160 to R162)

Each map in the rule's form, and for the two maps to the DAC also as the multiple of the operand and the
remaining fraction that the rules' identities name. -/

theorem analogToMidi_clamped (v : Int) : analogToMidi v = clampTo v 0 1023 / 8 := by
  rw [analogToMidi_eq, clamp_eq_clampTo v (by omega)]

theorem midiToDac_clamped (v : Int) : midiToDac v = clampTo v 0 127 * 4095 / 127 := by
  rw [midiToDac_eq, clamp_eq_clampTo v (by omega)]

theorem analogToDac_clamped (v : Int) : analogToDac v = clampTo v 0 1023 * 4095 / 1023 := by
  rw [analogToDac_eq, clamp_eq_clampTo v (by omega)]

theorem midiToDac_split (v : Int) : midiToDac v = 32 * clampTo v 0 127 + 31 * clampTo v 0 127 / 127 := by
  rw [midiToDac_clamped]
  omega

theorem analogToDac_split (v : Int) : analogToDac v = 4 * clampTo v 0 1023 + 3 * clampTo v 0 1023 / 1023 := by
  rw [analogToDac_clamped]
  omega

/-! ### Clamped operands and output domains (R165) -/

theorem analogToMidi_clampTo (v : Int) : analogToMidi (clampTo v 0 1023) = analogToMidi v := by
  rw [analogToMidi_clamped, clampTo_clampTo v (by omega), analogToMidi_clamped]

theorem midiToDac_clampTo (v : Int) : midiToDac (clampTo v 0 127) = midiToDac v := by
  rw [midiToDac_clamped, clampTo_clampTo v (by omega), midiToDac_clamped]

theorem analogToDac_clampTo (v : Int) : analogToDac (clampTo v 0 1023) = analogToDac v := by
  rw [analogToDac_clamped, clampTo_clampTo v (by omega), analogToDac_clamped]

theorem analogToMidi_bounds (v : Int) : 0 ≤ analogToMidi v ∧ analogToMidi v ≤ 127 := by
  have := clampTo_bounds v (by omega : (0 : Int) ≤ 1023)
  rw [analogToMidi_clamped]
  omega

theorem midiToDac_bounds (v : Int) : 0 ≤ midiToDac v ∧ midiToDac v ≤ 4095 := by
  have := clampTo_bounds v (by omega : (0 : Int) ≤ 127)
  rw [midiToDac_clamped]
  omega

theorem analogToDac_bounds (v : Int) : 0 ≤ analogToDac v ∧ analogToDac v ≤ 4095 := by
  have := clampTo_bounds v (by omega : (0 : Int) ≤ 1023)
  rw [analogToDac_clamped]
  omega

/-! ### Order (R166) -/

theorem analogToMidi_mono : Monotone analogToMidi := fun v w h => by
  rw [analogToMidi_clamped, analogToMidi_clamped]
  exact Int.ediv_le_ediv (by omega) (clampTo_mono 0 1023 h)

theorem midiToDac_mono : Monotone midiToDac := fun v w h => by
  rw [midiToDac_clamped, midiToDac_clamped]
  exact Int.ediv_le_ediv (by omega) (Int.mul_le_mul_of_nonneg_right (clampTo_mono 0 127 h) (by omega))

theorem analogToDac_mono : Monotone analogToDac := fun v w h => by
  rw [analogToDac_clamped, analogToDac_clamped]
  exact Int.ediv_le_ediv (by omega) (Int.mul_le_mul_of_nonneg_right (clampTo_mono 0 1023 h) (by omega))

/-! ### Corner cases inside the input domains (R161, R162, R167) -/

theorem midiToDac_succ {v : Int} (h0 : 0 ≤ v) (h : v < 127) :
    midiToDac (v + 1) = midiToDac v + 32 ∨ midiToDac (v + 1) = midiToDac v + 33 := by
  rw [midiToDac_split, midiToDac_split, clampTo_of_mem h0 h.le, clampTo_of_mem (by omega) h]
  omega

theorem analogToDac_succ {v : Int} (h0 : 0 ≤ v) (h : v < 1023) :
    analogToDac (v + 1) = analogToDac v + 4 ∨ analogToDac (v + 1) = analogToDac v + 5 := by
  rw [analogToDac_split, analogToDac_split, clampTo_of_mem h0 h.le, clampTo_of_mem (by omega) h]
  omega

/-- With `v = 8 * q + r` the multiples of `q` cancel: the detour is off by `31 * q / 127`, less `4 * r` and the
direct map's fraction. -/
theorem midiDetour_error {v : Int} (h0 : 0 ≤ v) (h : v ≤ 1023) :
    midiToDac (analogToMidi v) - analogToDac v = 31 * (v / 8) / 127 - 4 * (v % 8) - 3 * v / 1023 := by
  obtain ⟨hlo, hhi⟩ := analogToMidi_bounds v
  rw [midiToDac_split, clampTo_of_mem hlo hhi, analogToDac_split, analogToMidi_clamped, clampTo_of_mem h0 h]
  omega

/-- The detour is never more than 29 below: the direct map's fraction is 0 until `v / 8` gives its own 10. -/
theorem neg_29_le_midiDetour_error {v : Int} (h0 : 0 ≤ v) (h : v ≤ 1023) :
    -29 ≤ midiToDac (analogToMidi v) - analogToDac v := by
  rw [midiDetour_error h0 h]
  rcases lt_or_ge v 341 with hlow | hhigh
  · omega
  · omega

/-- Below 1016 the detour is less than 29 above: its term is at most 28 below 952, and at most 30 from there
on, where the direct map's fraction is 2. -/
theorem midiDetour_error_lt_29 {v : Int} (h0 : 0 ≤ v) (h : v < 1016) :
    midiToDac (analogToMidi v) - analogToDac v < 29 := by
  rw [midiDetour_error h0 (by omega)]
  rcases lt_or_ge v 952 with hlow | hhigh
  · omega
  · omega

/-- The last eight inputs share `v / 8 = 127`, and of them the first is 29 above. -/
theorem midiDetour_error_of_ge_1016 {v : Int} (h0 : 1016 ≤ v) (h : v ≤ 1023) :
    midiToDac (analogToMidi v) - analogToDac v = 31 - 4 * (v - 1016) - 3 * v / 1023 := by
  rw [midiDetour_error (by omega) h]
  omega

/-! ### The commands answer their maps -/

theorem answers_scA2m (v : Int) (s : State) : Answers (.scA2m v) s (rsp (analogToMidi v)) := rfl

theorem answers_scM2d (v : Int) (s : State) : Answers (.scM2d v) s (rsp (midiToDac v)) := rfl

theorem answers_scA2d (v : Int) (s : State) : Answers (.scA2d v) s (rsp (analogToDac v)) := rfl

/-- A result of 12 bits is read back from the result port as it is (R163). -/
theorem lastResult_of_answers {i : Instr} {s t : State} {r : Int} (hr : 0 ≤ r ∧ r ≤ 4095)
    (hi : Answers i s (rsp r)) (h : exec i s = .next t) : lastResult t = r := by
  cases hi.symm.trans h
  have hself : (rsp r).toInt = r := by
    rw [rsp, BitVec.toInt_ofInt]
    exact Int.bmod_eq_of_le (by omega) (by omega)
  simpa [lastResult] using hself

theorem lastResult_scA2m {v : Int} {s t : State} (h : exec (.scA2m v) s = .next t) :
    lastResult t = analogToMidi v :=
  have hbounds := analogToMidi_bounds v
  lastResult_of_answers ⟨hbounds.1, by omega⟩ (answers_scA2m v s) h

theorem lastResult_scM2d {v : Int} {s t : State} (h : exec (.scM2d v) s = .next t) :
    lastResult t = midiToDac v :=
  lastResult_of_answers (midiToDac_bounds v) (answers_scM2d v s) h

theorem lastResult_scA2d {v : Int} {s t : State} (h : exec (.scA2d v) s = .next t) :
    lastResult t = analogToDac v :=
  lastResult_of_answers (analogToDac_bounds v) (answers_scA2d v s) h

theorem lastResult_scA2m_bounds {v : Int} {s t : State} (h : exec (.scA2m v) s = .next t) :
    0 ≤ lastResult t ∧ lastResult t ≤ 127 :=
  lastResult_scA2m h ▸ analogToMidi_bounds v

theorem lastResult_scM2d_bounds {v : Int} {s t : State} (h : exec (.scM2d v) s = .next t) :
    0 ≤ lastResult t ∧ lastResult t ≤ 4095 :=
  lastResult_scM2d h ▸ midiToDac_bounds v

theorem lastResult_scA2d_bounds {v : Int} {s t : State} (h : exec (.scA2d v) s = .next t) :
    0 ≤ lastResult t ∧ lastResult t ≤ 4095 :=
  lastResult_scA2d h ▸ analogToDac_bounds v

/-! ### The statements -/

/-- Settles O25: each command answers its map, in the rule's form or split, and the split form gives the
steps. -/
theorem scaleCommandsComputeTheirMaps : Obligations.ScaleCommandsComputeTheirMaps := by
  refine ⟨fun _ => ⟨rfl, rfl, rfl⟩, fun v s => ?_, fun v s t u h0 h ht hu => ?_,
    fun v s t u h0 h ht hu => ?_⟩
  · exact ⟨analogToMidi_clamped v ▸ answers_scA2m v s, midiToDac_clamped v ▸ answers_scM2d v s,
      analogToDac_clamped v ▸ answers_scA2d v s, midiToDac_split v ▸ answers_scM2d v s,
      analogToDac_split v ▸ answers_scA2d v s⟩
  · rw [lastResult_scM2d ht, lastResult_scM2d hu]
    exact midiToDac_succ h0 h
  · rw [lastResult_scA2d ht, lastResult_scA2d hu]
    exact analogToDac_succ h0 h

/-- Settles O26: the result is the map's value, which is in its domain, and clamping twice is clamping once. -/
theorem scaleResultsStayInDomain : Obligations.ScaleResultsStayInDomain := by
  intro v s
  obtain ⟨ha0, ha1⟩ := lastResult_scA2m_bounds (answers_scA2m v s)
  obtain ⟨hm0, hm1⟩ := lastResult_scM2d_bounds (answers_scM2d v s)
  obtain ⟨hd0, hd1⟩ := lastResult_scA2d_bounds (answers_scA2d v s)
  exact ⟨_, _, _,
    answers_scA2m v s, ha0, ha1, analogToMidi_clampTo v ▸ answers_scA2m (clampTo v 0 1023) s,
    answers_scM2d v s, hm0, hm1, midiToDac_clampTo v ▸ answers_scM2d (clampTo v 0 127) s,
    answers_scA2d v s, hd0, hd1, analogToDac_clampTo v ▸ answers_scA2d (clampTo v 0 1023) s⟩

/-- Settles O27: the results are in the order of the maps' values, and the endpoints are evaluated. -/
theorem scaleMapsAreMonotonic : Obligations.ScaleMapsAreMonotonic := by
  refine ⟨fun v w s a a' m m' d d' h ha ha' hm hm' hd hd' => ?_, fun s => ⟨rfl, rfl, rfl, rfl, rfl, rfl⟩⟩
  rw [lastResult_scA2m ha, lastResult_scA2m ha', lastResult_scM2d hm, lastResult_scM2d hm',
    lastResult_scA2d hd, lastResult_scA2d hd']
  exact ⟨analogToMidi_mono h, midiToDac_mono h, analogToDac_mono h⟩

/-- Settles O28, by the error of the detour; the examples are evaluated. -/
theorem midiDetourIsLossy : Obligations.MidiDetourIsLossy := by
  refine ⟨fun v s a m d h0 h ha hm hd => ?_, fun s => ⟨rfl, rfl, rfl, rfl, rfl, rfl⟩⟩
  have hlower := neg_29_le_midiDetour_error h0 h
  rw [lastResult_scM2d hm, lastResult_scA2m ha, lastResult_scA2d hd]
  rcases lt_or_ge v 1016 with hlow | hhigh
  · have hupper := midiDetour_error_lt_29 h0 hlow
    omega
  · have herror := midiDetour_error_of_ge_1016 hhigh h
    omega

end Sys2Proof.Machine
end

section
/-! SUPPORT. The DAC writes (family 44_dac): the frame's fields, what a write of a quiet block does and how the
lines and the bus stand during it, what the observer of the chips makes of its six events, and the lines along
a trace. -/

namespace Sys2Proof.Machine

open Sys2Proof.Claims

/-! ### The fields of a frame (R183, R184) -/

theorem v12_eq_clampTo (v : Int) : ((v12 v).toNat : Int) = clampTo v 0 4095 := by
  rw [v12_toNat, clamp_eq_clampTo v (by omega), Int.toNat_of_nonneg (clampTo_bounds v (by omega)).1]

theorem dacFrame_subField (ctrl3 : BitVec 3) (d : SubDac) (v : Int) :
    (dacFrame ctrl3 d v).extractLsb' 15 1 = BitVec.ofNat 1 d.index := by
  have := clamp_bounds v (by omega : (0 : Int) ≤ 4095)
  apply BitVec.eq_of_toNat_eq
  rw [BitVec.extractLsb'_toNat, dacFrame_toNat, BitVec.toNat_ofNat, Nat.shiftRight_eq_div_pow]
  omega

theorem dacFrame_ctrl3Field (ctrl3 : BitVec 3) (d : SubDac) (v : Int) :
    (dacFrame ctrl3 d v).extractLsb' 12 3 = ctrl3 := by
  have := clamp_bounds v (by omega : (0 : Int) ≤ 4095)
  apply BitVec.eq_of_toNat_eq
  rw [BitVec.extractLsb'_toNat, dacFrame_toNat, Nat.shiftRight_eq_div_pow]
  omega

theorem dacFrame_valueField (ctrl3 : BitVec 3) (d : SubDac) (v : Int) :
    (dacFrame ctrl3 d v).extractLsb' 0 12 = v12 v :=
  BitVec.extractLsb'_append_eq_right

/-- `DF` is its high byte and then its low byte (R185). -/
theorem frameHi_append_frameLo (df : BitVec 16) : frameHi df ++ frameLo df = df :=
  BitVec.extractLsb'_append_extractLsb' (w := 8) (len := 8)

theorem hiByte_toNat (ctrl3 : BitVec 3) (d : SubDac) (v : Int) : (hiByte ctrl3 d v).toNat =
    d.index * 128 + ctrl3.toNat * 16 + (clampTo v 0 4095).toNat / 256 := by
  have := clampTo_bounds v (by omega : (0 : Int) ≤ 4095)
  have hd : d.index ≤ 1 := by cases d <;> decide
  rw [hiByte, BitVec.toNat_ofNat]
  omega

/-- Settles O29: the fields by the frame's number, the bytes by theirs. -/
theorem dacFrameHasItsFields : Obligations.DacFrameHasItsFields :=
  ⟨fun ctrl3 d v => ⟨dacFrame_subField ctrl3 d v, dacFrame_ctrl3Field ctrl3 d v,
      dacFrame_valueField ctrl3 d v ▸ v12_eq_clampTo v, frameHi_dacFrame ctrl3 d v,
      frameLo_dacFrame ctrl3 d v, (frameHi_append_frameLo _).symm⟩,
    rfl, fun v => ⟨hiByte_toNat 0b011#3 .chA v, hiByte_toNat 0b011#3 .chB v⟩⟩

/-! ### The words of the two writes (R91, R95) -/

theorem argEncodable_toInt (arg : Word) : argEncodable arg.toInt = true := by
  obtain ⟨-, -, -, hlo, hhi⟩ := fits_operandsOf 0#32 arg
  exact Bool.and_eq_true_iff.mpr ⟨decide_eq_true hlo, decide_eq_true hhi⟩

/-- A command that reads `ARG` is decoded from its `CW` and the `ARG` that its operand was read from. -/
theorem decode_of_encode {i : Instr} {cw arg : Word} (hi : i.wellFormed = true)
    (hcw : (encode i).1 = cw) (harg : (encode i).2 = BitVec.ofInt 32 arg.toInt) : decode cw arg = .ok i := by
  rw [← decodeOfEncodeIsIdentity i hi, hcw, harg, BitVec.ofInt_toInt]

/-- The two words are the command's own encoding, so put back on the port they are the same input (R193). -/
theorem encode_of_decode {cw arg : Word} {i : Instr} (h : decode cw arg = .ok i) (hu : i.usesArg = true) :
    encode i = (cw, arg) :=
  have ⟨_, hcw, harg, _⟩ := encodeOfDecodeIsIdentity cw arg i h
  Prod.ext hcw (harg hu)

/-! ### One equation per way a write can go (R190, R195 to R197) -/

theorem exec_dacWrite_malformed {cs sub : Nat} (h : dest? cs sub = none) (v : Int) (s : State) :
    exec (.dacWrite cs sub v) s = .next (s.reject (.badDest 0x20#6 [cs, sub]) errConfig) := by
  simp only [exec, execDacWrite, h]

theorem exec_dacWrite_dest {cs sub : Nat} {c : ChipSel} {d : SubDac} (h : dest? cs sub = some (c, d))
    (v : Int) (s : State) :
    exec (.dacWrite cs sub v) s = .next (dacWrite (.dacWrite cs sub v) c d v s) := by
  simp only [exec, execDacWrite, h]

theorem exec_outWrite_invalid {o : Nat} (h : chan? o = none) (v : Int) (s : State) :
    exec (.outWrite o v) s = .next (s.reject (.invalidId 0x21#6 o) errInvalidId) := by
  simp only [exec, execOutWrite, h]

theorem exec_outWrite_unrouted {o : Nat} {c : Chan} {s : State} (hc : chan? o = some c)
    (h : routed? c s = none) (v : Int) :
    exec (.outWrite o v) s = .next (s.reject (.badDest 0x21#6 [o]) errConfig) := by
  simp only [exec, execOutWrite, hc, h]

theorem exec_outWrite_routed {o : Nat} {c : Chan} {l : ChipSel} {d : SubDac} {s : State}
    (hc : chan? o = some c) (h : routed? c s = some (l, d)) (v : Int) :
    exec (.outWrite o v) s = .next (dacWrite (.outWrite o v) l d v s) := by
  simp only [exec, execOutWrite, hc, h]

/-- A table that failed its validation routes nothing (R197). -/
theorem routed?_of_cfgErr {s : State} (h : s.cfgErr = true) (o : Chan) : routed? o s = none := if_pos h

theorem routed?_of_entry {s : State} {o : Chan} {c : ChipSel} {d : SubDac} (h : s.cfgErr = false)
    (hroute : s.cfg.route.get o = ⟨c.index, d.index⟩) : routed? o s = some (c, d) := by
  simp [routed?, h, hroute]

/-! ### A write of a quiet block -/

theorem frameEvents_eq_writeEvents (s : State) (c : ChipSel) (d : SubDac) (v : Int) :
    frameEvents s.cfg c d v = writeEvents s c d v := by
  simp only [frameEvents, writeEvents, sixEvents, frameHi_dacFrame, frameLo_dacFrame]

/-- All that is left of a write of a quiet block is its six events and its result (R190, R200). -/
theorem dacWrite_of_quiet {s : State} (h : Quiet s) (i : Instr) (c : ChipSel) (d : SubDac) (v : Int) :
    dacWrite i c d v s =
      { s with trace := s.trace ++ writeEvents s c d v, results := s.results ++ [0#32] } := by
  obtain ⟨hcs, hbus, hbusy⟩ := h
  have hset : s.csN.set c true = s.csN := by
    rw [hcs]
    cases c <;> rfl
  rw [dacWrite_idle i c d v hbusy, hset, frameEvents_eq_writeEvents]
  simp [hbus, hbusy]

/-- Settles O30: a malformed destination is rejected, any other is written to. -/
theorem dacWriteSendsOneFrame : Obligations.DacWriteSendsOneFrame := by
  refine ⟨fun cs sub arg hcs hsub => ?_, fun cs sub v s hdest => ?_, fun c d v s hq => ?_⟩
  · have hfits : (Instr.dacWrite cs sub arg.toInt).wellFormed = true := by
      simp [Instr.wellFormed, indexEncodable, hcs, hsub, argEncodable_toInt]
    exact decode_of_encode hfits rfl rfl
  · exact exec_dacWrite_malformed (dest?_eq_none.mpr (by omega)) v s
  · rw [exec_dacWrite_dest (dest?_index c d), dacWrite_of_quiet hq]

/-- A routed `out.write` of a quiet block is one frame to the destination of its entry (R196). -/
theorem exec_outWrite_of_quiet {s : State} {o : Chan} {c : ChipSel} {d : SubDac} (hq : Quiet s)
    (hcfg : s.cfgErr = false) (hroute : s.cfg.route.get o = ⟨c.index, d.index⟩) (v : Int) :
    exec (.outWrite o.id v) s = .next
      { s with trace := s.trace ++ writeEvents s c d v, results := s.results ++ [0#32] } := by
  rw [exec_outWrite_routed (chan?_id o) (routed?_of_entry hcfg hroute), dacWrite_of_quiet hq]

/-- Settles O31, one equation per check of `out.write`; `dac.write` makes neither (R197). -/
theorem outWriteRoutesItsFrame : Obligations.OutWriteRoutesItsFrame := by
  refine ⟨fun o arg ho => ?_, fun o v s ho => exec_outWrite_invalid (chan?_eq_none.mpr ho) v s,
    fun o v s hcfg => exec_outWrite_unrouted (chan?_id o) (routed?_of_cfgErr hcfg o) v,
    fun o c d v s hq hcfg hroute => exec_outWrite_of_quiet hq hcfg hroute v, fun c d v s hq _ => ?_, rfl⟩
  · have hfits : (Instr.outWrite o arg.toInt).wellFormed = true := by
      simp [Instr.wellFormed, chanEncodable, ho, argEncodable_toInt]
    exact decode_of_encode hfits rfl rfl
  · obtain ⟨-, -, hwrite⟩ := dacWriteSendsOneFrame
    exact ⟨_, hwrite c d v s hq, rfl⟩

/-! ### A write that waits (R193; log 9) -/

theorem exec_of_dacRequest? {i : Instr} {s : State} {c : ChipSel} {d : SubDac} {v : Int}
    (h : dacRequest? i s = some (c, d, v)) : exec i s = .next (dacWrite i c d v s) := by
  cases i with
  | dacWrite cs sub w =>
    obtain ⟨⟨c', d'⟩, hdest, ⟨⟩⟩ := Option.map_eq_some_iff.mp h
    exact exec_dacWrite_dest hdest v s
  | outWrite o w =>
    cases hc : chan? o with
    | none => simp [dacRequest?, hc] at h
    | some ch =>
      simp only [dacRequest?, hc] at h
      obtain ⟨⟨c', d'⟩, hroute, ⟨⟩⟩ := Option.map_eq_some_iff.mp h
      exact exec_outWrite_routed hc hroute v
  | _ => cases h

/-- What is asked for does not depend on the inputs still to come. -/
theorem dacRequest?_setPort (i : Instr) (s : State) (p : List PortInput) :
    dacRequest? i (s.setPort p) = dacRequest? i s := by cases i <;> rfl

theorem usesArg_of_writesDac {i : Instr} (h : writesDac i = true) : i.usesArg = true := by
  cases i with
  | dacWrite | outWrite => rfl
  | _ => cases h

/-- Settles O32: the request put back on the port is the command that was taken from it. -/
theorem busyWriteHolds : Obligations.BusyWriteHolds := by
  intro s cw arg rest i hp hd hreq hbusy
  refine ⟨?_, step_command (s := { s with busy := false }) hp hd⟩
  obtain ⟨⟨c, d, v⟩, hreq⟩ := Option.ne_none_iff_exists'.mp hreq
  have hwords : encode i = (cw, arg) :=
    encode_of_decode hd (usesArg_of_writesDac (writesDac_of_dacRequest? hreq))
  have hback : holdRequest i (s.setPort rest) = s := by
    rw [holdRequest, hwords, State.setPort_port, ← hp]
    rfl
  calc step s = exec i (s.setPort rest) := step_command hp hd
    _ = .next (dacWrite i c d v (s.setPort rest)) :=
        exec_of_dacRequest? ((dacRequest?_setPort i s rest).trans hreq)
    _ = .next s := by rw [dacWrite_busy (s := s.setPort rest) _ _ _ _ hbusy, hback]

/-! ### The lines and the bus during a write (R194) -/

/-- The lines, the bus and the guard stand so. -/
structure BusAt (s : State) (lines : Lines Bool) (owned busy : Bool) : Prop where
  lines : s.csN = lines
  bus   : s.busOwned = owned
  guard : s.busy = busy

/-- Where the lines, the bus and the guard stand after `k` steps of a write. -/
theorem busAt_take {s : State} (h : Quiet s) (c : ChipSel) (d : SubDac) (v : Int) (k : Nat) :
    BusAt (runSequence ((dacSequence s.cfg c d v).take k) s)
      (if 2 ≤ k ∧ k ≤ 6 then Lines.set ⟨true, true⟩ c false else ⟨true, true⟩)
      (3 ≤ k ∧ k ≤ 5) (1 ≤ k ∧ k ≤ 7) := by
  obtain ⟨hcs, hbus, hbusy⟩ := h
  have low : s.csN.set c false = Lines.set ⟨true, true⟩ c false := by rw [hcs]
  have high : (s.csN.set c false).set c true = ⟨true, true⟩ := by
    rw [low]
    cases c <;> rfl
  match k with
  | 0 => exact ⟨hcs, hbus, hbusy⟩
  | 1 => exact ⟨hcs, hbus, rfl⟩
  | 2 => exact ⟨low, hbus, rfl⟩
  | 3 | 4 | 5 | 6 => exact ⟨low, rfl, rfl⟩
  | 7 => exact ⟨high, rfl, rfl⟩
  | n + 8 =>
    rw [List.take_of_length_le (Nat.le_add_left 8 n)]
    exact ⟨high.trans (if_neg (by omega)).symm, (decide_eq_false (by omega)).symm,
      (decide_eq_false (by omega)).symm⟩

/-- Settles O33, by where the lines, the bus and the guard stand after `k` steps. -/
theorem linesDuringDacWrite : Obligations.LinesDuringDacWrite := by
  intro c c' d v s k hq hne
  obtain ⟨hlines, hbus, hguard⟩ := busAt_take hq c d v k
  have idle (x : ChipSel) : Lines.get ⟨true, true⟩ x = true := by cases x <;> rfl
  dsimp only
  rw [hlines, hbus, hguard]
  refine ⟨?_, ?_, decide_eq_true_iff, decide_eq_true_iff⟩
  · split
    next hk => simp [hk]
    next hk => simp [hk, idle]
  · split
    · rw [Lines.get_set_other _ _ hne, idle]
    · exact idle c'

/-! ### The other commands (R201) -/

/-- Settles O34, by the ways a command can end: only a rejection adds to the trace, a diagnostic. -/
theorem onlyDacWritesTouchTheBus : Obligations.OnlyDacWritesTouchTheBus := by
  intro i s t h hi
  cases ending_of_exec h with
  | rejected d code ht =>
    subst ht
    exact ⟨rfl, rfl, rfl, if s.cfg.diagEmit then [d] else [], by cases hd : s.cfg.diagEmit <;> simp [hd]⟩
  | answered | cycled | updated | refreshed =>
    subst t
    exact ⟨rfl, rfl, rfl, [], (List.append_nil _).symm⟩
  | wrote _ _ _ hw _ => simp [hi] at hw

/-! ### The observer of the chips (R205, R206) -/

/-- The value of a sub-DAC of the chip (R205). -/
def Chip.reg (h : Chip) : SubDac → BitVec 12
  | .chA => h.regA
  | .chB => h.regB

theorem Observer.dacReg_eq_reg (w : Observer) (c : ChipSel) (d : SubDac) :
    w.dacReg c d = (w.chips.get c).reg d := by cases d <;> rfl

theorem dacFrame_topBit (ctrl3 : BitVec 3) (d : SubDac) (v : Int) :
    (dacFrame ctrl3 d v).getLsbD 15 = decide (d = .chB) := by
  rw [BitVec.getLsbD_eq_extractLsb', dacFrame_subField]
  cases d <;> rfl

/-- A latched frame puts its value in its sub-DAC and leaves the other as it was. -/
theorem Chip.latch_dacFrame_reg (h : Chip) (ctrl3 : BitVec 3) (d d' : SubDac) (v : Int) :
    (h.latch (dacFrame ctrl3 d v)).reg d' = if d' = d then v12 v else h.reg d' := by
  rw [latch, dacFrame_topBit, dacFrame_valueField]
  cases d <;> cases d' <;> rfl

theorem Chip.shift_of_not_selected {h : Chip} (hsel : h.selected = false) (x : Byte) : h.shift x = h := by
  simp [shift, hsel]

/-- A chip that is selected for two bytes latches them as a frame. -/
theorem Chip.reg_after_frame (h : Chip) (hi lo : Byte) (n : Nat) (d : SubDac) :
    (((h.select.shift hi).shift lo).deselect n).reg d = (h.latch (hi ++ lo)).reg d := by
  simp only [select, shift, deselect, latch, if_true, List.nil_append, List.singleton_append]
  cases d <;> split <;> rfl

/-- The six events of a write let the chip of its line take the two bytes. -/
theorem Observer.get_watch_sixEvents (w : Observer) (hz : Nat) (c : ChipSel) (hi lo : Byte) :
    (w.watch (sixEvents hz c hi lo)).chips.get c =
      (((w.chips.get c).select.shift hi).shift lo).deselect w.draws := by cases c <;> rfl

/-- The other chip sees only the bytes. -/
theorem Observer.get_watch_sixEvents_other {c c' : ChipSel} (hne : c' ≠ c) (w : Observer) (hz : Nat)
    (hi lo : Byte) : (w.watch (sixEvents hz c hi lo)).chips.get c' =
      ((w.chips.get c').shift hi).shift lo := by
  cases c <;> cases c'
  · exact absurd rfl hne
  · rfl
  · rfl
  · exact absurd rfl hne

/-- What the observer of unselected chips reads in the events of a write. -/
theorem Observer.dacReg_watch_writeEvents {w : Observer} (h : ∀ c, (w.chips.get c).selected = false)
    (s : State) (c c' : ChipSel) (d d' : SubDac) (v : Int) :
    (w.watch (writeEvents s c d v)).dacReg c' d' = if (c', d') = (c, d) then v12 v else w.dacReg c' d' := by
  rw [writeEvents, dacReg_eq_reg, dacReg_eq_reg]
  by_cases hc : c' = c
  · subst hc
    rw [get_watch_sixEvents, Chip.reg_after_frame, ← frameHi_dacFrame, ← frameLo_dacFrame s.cfg.dacCtrl3 d,
      frameHi_append_frameLo, Chip.latch_dacFrame_reg]
    simp only [Prod.mk.injEq, true_and]
  · rw [get_watch_sixEvents_other hc, Chip.shift_of_not_selected (h c'), Chip.shift_of_not_selected (h c'),
      if_neg fun heq => hc (congrArg Prod.fst heq)]

/-- Every entry of a table that passes its validation is the indices of a destination. -/
theorem entry_of_routeOk {r : Four Dest} (h : routeOk r = true) (o : Chan) :
    ∃ (c : ChipSel) (d : SubDac), r.get o = ⟨c.index, d.index⟩ := by
  obtain ⟨c, d, hdest⟩ := dest?_of_routeOk h o
  obtain ⟨hc, hd⟩ := index_of_dest? hdest
  exact ⟨c, d, by rw [hc, hd]⟩

/-- Settles O36: the write is one frame to the entry of the table, and the chip of its line latches it. -/
theorem observerSeesClampedValue : Obligations.ObserverSeesClampedValue := by
  intro o v s w hs hroute hsel
  obtain ⟨c, d, hentry⟩ := entry_of_routeOk hroute o
  have hcfg : s.cfgErr = false := by rw [hs.cfgErr, hroute, Bool.not_true]
  have hregs := Observer.dacReg_watch_writeEvents hsel s c
  refine ⟨_, writeEvents s c d v, c, d, exec_outWrite_of_quiet hs.quiet hcfg hentry v, rfl, hentry, ?_,
    fun c' d' hne => ?_⟩
  · rw [hregs, if_pos rfl, v12_eq_clampTo]
  · rw [hregs, if_neg hne]

/-! ### The lines along a trace (R192) -/

/-- What one event makes of the lines (R67). -/
def linesAfter (l : Lines Bool) : Event → Lines Bool
  | .csAssert c => l.set c false
  | .csDeassert c => l.set c true
  | .claim _ _ _ | .xfer _ | .release | .diag _ => l

theorem lineLevels_concat (t : List Event) (e : Event) :
    lineLevels (t ++ [e]) = linesAfter (lineLevels t) e := by
  rw [lineLevels, List.foldl_concat]
  cases e <;> rfl

/-- Each event moves the lines as it moves the bracket. -/
theorem linesAfter_of_after {p q : BusPhase} {e : Event} (h : p.after e = some q) :
    linesAfter p.lines e = q.lines := by
  unfold BusPhase.after at h
  split at h
  -- the de-assertion belongs to the bracket's own line only
  case h_7 c d =>
    split at h
    next hcd =>
      subst hcd
      cases h
      cases c <;> rfl
    next => cases h
  case h_8 => cases h
  all_goals cases h; rfl

theorem phaseAfter_concat_cases {t : List Event} {e : Event} {p : BusPhase}
    (h : phaseAfter (t ++ [e]) = some p) : ∃ q, phaseAfter t = some q ∧ q.after e = some p := by
  simpa [phaseAfter_append, Option.bind_eq_some_iff] using h

/-- The lines are as the place of the trace in its bracket requires (R190). -/
theorem lineLevels_of_phaseAfter {t : List Event} {p : BusPhase} (h : phaseAfter t = some p) :
    lineLevels t = p.lines := by
  induction t using List.reverseRecOn generalizing p with
  | nil => cases h; rfl
  | append_singleton t e ih =>
    obtain ⟨q, hq, hafter⟩ := phaseAfter_concat_cases h
    rw [lineLevels_concat, ih hq, linesAfter_of_after hafter]

theorem BusPhase.linesExclusive_lines (p : BusPhase) : linesExclusive p.lines := by
  cases p with
  | idle => exact .inl rfl
  | selected c | claimed c _ | released c =>
    cases c with
    | cs0 => exact .inr rfl
    | cs1 => exact .inl rfl

theorem traceExclusive_nil : TraceExclusive [] := by
  intro p hp
  rw [List.prefix_nil.mp hp]
  exact .inl rfl

theorem TraceExclusive.concat {t : List Event} {e : Event} (ht : TraceExclusive t)
    (he : linesExclusive (lineLevels (t ++ [e]))) : TraceExclusive (t ++ [e]) := by
  intro p hp
  rcases List.prefix_concat_iff.mp hp with rfl | hp
  · exact he
  · exact ht p hp

theorem traceExclusive_of_phaseAfter {t : List Event} {p : BusPhase} (h : phaseAfter t = some p) :
    TraceExclusive t := by
  induction t using List.reverseRecOn generalizing p with
  | nil => exact traceExclusive_nil
  | append_singleton t e ih =>
    obtain ⟨q, hq, -⟩ := phaseAfter_concat_cases h
    exact (ih hq).concat (lineLevels_of_phaseAfter h ▸ p.linesExclusive_lines)

/-- An event that asserts no line lets at most one line be low if at most one was. -/
theorem linesExclusive_linesAfter {l : Lines Bool} {e : Event} (he : ∀ c, e ≠ .csAssert c)
    (h : linesExclusive l) : linesExclusive (linesAfter l e) := by
  cases e with
  | csAssert c => exact absurd rfl (he c)
  | csDeassert c =>
    cases c with
    | cs0 => exact .inl rfl
    | cs1 => exact .inr rfl
  | claim | xfer | release | diag => exact h

theorem TraceExclusive.append {t u : List Event} (ht : TraceExclusive t)
    (hu : ∀ e ∈ u, ∀ c, e ≠ .csAssert c) : TraceExclusive (t ++ u) := by
  induction u generalizing t with
  | nil => rwa [List.append_nil]
  | cons e u ih =>
    obtain ⟨he, hu⟩ := List.forall_mem_cons.mp hu
    have hlines : linesExclusive (lineLevels (t ++ [e])) :=
      lineLevels_concat t e ▸ linesExclusive_linesAfter he (ht t List.prefix_rfl)
    rw [List.append_cons]
    exact ih (ht.concat hlines) hu

theorem BusPhase.abandon_asserts_no_line (p : BusPhase) : ∀ e ∈ p.abandon, ∀ c, e ≠ .csAssert c := by
  cases p <;> simp [abandon]

theorem EndedByReset.traceExclusive {t : List Event} (h : EndedByReset t) : TraceExclusive t := by
  obtain ⟨t₀, p, hp, rfl⟩ := h
  exact (traceExclusive_of_phaseAfter hp).append p.abandon_asserts_no_line

/-- What every step keeps, a run keeps. -/
theorem run_keeps {P : State → Prop} (hstep : ∀ s t, P s → step s = .next t → P t) {k : Nat} {s t : State}
    (h : Host.Core.run Sys2Proof.core k s = .next t) (hs : P s) : P t := by
  induction k generalizing s with
  | zero => cases h; exact hs
  | succ k ih =>
    obtain ⟨u, hu, -⟩ := step_ends s
    have hcore : Sys2Proof.core.step s = .next u := hu
    simp only [Host.Core.run, hcore] at h
    exact ih h (hstep s u hs hu)

/-- Settles O51: a run keeps the invariant, so the block is quiet, its trace is whole frames and each ended
trace whole frames and one abandoned; along a bracket only its own line is low, and abandoning asserts none. -/
theorem chipSelectsNeverLowTogether : Obligations.ChipSelectsNeverLowTogether := by
  intro k s t hs hrun
  have ht : Inv t := run_keeps stepKeepsInvariant hrun hs
  obtain ⟨hlines, -, -⟩ := ht.quiet
  exact ⟨hlines ▸ .inl rfl, traceExclusive_of_phaseAfter ht.trace,
    fun u hu => (ht.ended u hu).traceExclusive⟩

end Sys2Proof.Machine
end

section
/-! SUPPORT. The system commands (family 45_system): the words of an `OP` of format N, the state with every
ghost bit cleared, and the bits of the status word. -/

namespace Sys2Proof

open Sys2Proof.Claims

/-- A row of format N has no operand, so another word of its `OP` has a must-be-zero bit set (R92, R97). -/
theorem illegalWord_of_formatN {r : Row} {cw : Word} (hr : r ∈ opcodeMap) (hfmt : r.format = .N)
    (hop : opOf cw = opOf r.pattern) (hne : cw ≠ r.pattern) : IllegalWord cw := by
  refine .inr ⟨_, (row_mem_opcodes r hr).1, hop.symm, fun hzero => hne ?_⟩
  have hsel : r.selects cw = true := (selects_iff hr cw).mpr ⟨hop, hzero⟩
  rw [Row.selects, beq_iff_eq, hfmt] at hsel
  rw [← hsel]
  exact (BitVec.and_allOnes).symm

end Sys2Proof

namespace Sys2Proof.Machine

open Sys2Proof.Claims

theorem answers_sysNop (s : State) : Answers .sysNop s 0#32 := rfl

theorem exec_sysCycle (s : State) : exec .sysCycle s = .next (s.clearFresh.respond 0#32) := rfl

theorem answers_sysStatus (s : State) : Answers .sysStatus s (statusWord s) := rfl

/-- Settles O38: the row of `sys.nop` has format N, so no other word of its `OP` is a command. -/
theorem sysNopDoesNothing : Obligations.SysNopDoesNothing :=
  ⟨decode_encode_any_arg (i := .sysNop) rfl rfl,
    fun _ => illegalWord_of_formatN (r := ⟨0#32, .N, fun _ => .sysNop⟩) List.mem_cons_self rfl,
    answers_sysNop⟩

/-! ### The ghost bits cleared (R221) -/

@[simp] theorem State.clearFresh_channel (s : State) (b : Bank) (c : Chan) :
    s.clearFresh.channel b c = { s.channel b c with fresh := false } := by simp [channel]

@[simp] theorem State.clearFresh_trig (s : State) (c : Chan) :
    s.clearFresh.trig c = { s.trig c with fresh := false } := by simp [trig]

theorem State.clearFresh_clearFresh (s : State) : s.clearFresh.clearFresh = s.clearFresh := rfl

theorem State.clearFresh_respond (s : State) (r : Word) :
    (s.respond r).clearFresh = s.clearFresh.respond r := rfl

/-- A second `sys.cycle` only answers. -/
theorem answers_second_sysCycle (s : State) : Answers .sysCycle (s.clearFresh.respond 0#32) 0#32 := by
  rw [Answers, exec_sysCycle, State.clearFresh_respond, State.clearFresh_clearFresh]
  rfl

/-- Settles O39: every channel of the resulting state is stale, its other fields stand, and clearing the ghost
bits again does nothing. -/
theorem sysCycleClearsGhostBits : Obligations.SysCycleClearsGhostBits := by
  refine ⟨decode_encode_any_arg (i := .sysCycle) rfl rfl, fun s => ⟨_, exec_sysCycle s, rfl,
    s.clearFresh_channel, s.clearFresh_trig, ⟨rfl, rfl, rfl, rfl, rfl, rfl, rfl, rfl⟩, rfl, fun b c => ?_,
    _, answers_second_sysCycle s, rfl, rfl⟩⟩
  have hstale : ((s.clearFresh.respond 0#32).channel b c).fresh = false :=
    congrArg AnalogChannel.fresh (s.clearFresh_channel b c)
  rw [staleQuery, staleAnalog_id, hstale, Bool.not_false]

/-! ### The status word (R37) -/

/-- `CFG_ERR` is bit 0, `BUSY` bit 1, `CS_N` bits 3:2, and every other bit 0. -/
theorem statusWord_getLsbD (s : State) (n : Nat) : (statusWord s).getLsbD n =
    ([s.cfgErr, s.busy, s.csN.cs0, s.csN.cs1][n]?).getD false := by
  rw [statusWord, BitVec.getLsbD_setWidth]
  simp only [BitVec.getLsbD_append]
  match n with
  | 0 | 1 | 2 | 3 => simp
  | n + 4 => simp

/-- A quiet block has both lines high and the guard free, so `CFG_ERR` is all that varies (R222). -/
theorem statusWord_of_quiet {s : State} (h : Quiet s) :
    statusWord s = if s.cfgErr then 0xD#32 else 0xC#32 := by
  obtain ⟨hlines, -, hbusy⟩ := h
  rw [statusWord, hlines, hbusy]
  cases s.cfgErr <;> rfl

/-- Settles O40, by the bits of the status word. -/
theorem sysStatusReadsItsBits : Obligations.SysStatusReadsItsBits := by
  refine ⟨decode_encode_any_arg (i := .sysStatus) rfl rfl, fun s => ⟨_, answers_sysStatus s, ?_⟩,
    fun s hquiet => statusWord_of_quiet hquiet ▸ answers_sysStatus s⟩
  have hbit := statusWord_getLsbD s
  exact ⟨hbit 0, hbit 1, hbit 2, hbit 3,
    fun n hn => by rw [hbit, List.getElem?_eq_none hn, Option.getD_none]⟩

end Sys2Proof.Machine
end

section
/-! SUPPORT. Errors, results and diagnostics (family 60_exceptions): every command is rejected, in this state and in
every state alike, or accepted with a result in its range; `DIAG_EMIT` plays a part only in a rejection. -/

namespace Sys2Proof

theorem Chan.id_valid (c : Chan) : 1 ≤ c.id ∧ c.id ≤ 4 := by cases c <;> decide

end Sys2Proof

namespace Sys2Proof.Machine

open Sys2Proof.Claims

/-! ### Commands return one result (R240) -/

/-- Settles O7: a step has an end, and outside the channels each end of a command is a rejection, one result, or a
DAC write, which does not wait when the guard is free. -/
theorem nothingTraps : Obligations.NothingTraps := by
  constructor
  · intro s
    obtain ⟨t, ht, -⟩ := step_ends s
    exact ⟨t, ht⟩
  · intro i s hbusy
    obtain ⟨t, ht, hend⟩ := exec_ends i s
    rcases hend.cases_outside_channels with ⟨d, code, rfl⟩ | ⟨-, r, hr⟩ | ⟨l, d, v, rfl⟩
    · exact ⟨_, code, ht, rfl⟩
    · exact ⟨t, r, ht, hr⟩
    · exact ⟨_, 0#32, ht, by rw [dacWrite_idle i l d v hbusy]⟩

/-! ### Results as signed numbers (R94, R241) -/

/-- The result is not negative and not above the command's greatest (R241). -/
def ResultInRange (i : Instr) (r : Word) : Prop := 0 ≤ r.toInt ∧ r.toInt ≤ maxResult i

theorem maxResult_nonneg (i : Instr) : 0 ≤ maxResult i := by
  cases i <;> simp [maxResult]

theorem resultInRange_zero (i : Instr) : ResultInRange i 0#32 := ⟨Int.le_refl 0, maxResult_nonneg i⟩

/-- A narrower word extended with zeros is not negative. -/
theorem toInt_setWidth_of_narrow {n : Nat} (x : BitVec n) (hn : n < 32) :
    (x.setWidth 32).toInt = x.toNat := by
  have hpow : 2 ^ n ≤ 2 ^ 31 := Nat.pow_le_pow_right (by decide) (by omega)
  have hx := x.isLt
  rw [BitVec.toInt_setWidth, Int.bmod_eq_of_le (by omega) (by omega)]

theorem resultInRange_sampleResult {i : Instr} (hi : maxResult i = 1023) (x : Sample) :
    ResultInRange i (sampleResult x) := by
  have hx := x.isLt
  rw [ResultInRange, hi, sampleResult, toInt_setWidth_of_narrow x (by decide)]
  omega

theorem resultInRange_boolResult {i : Instr} (hi : maxResult i = 1) (p : Bool) :
    ResultInRange i (boolResult p) := by
  rw [ResultInRange, hi]
  cases p <;> decide

theorem resultInRange_statusWord (s : State) : ResultInRange .sysStatus (statusWord s) := by
  rw [ResultInRange, statusWord, toInt_setWidth_of_narrow _ (by decide), maxResult]
  omega

theorem queryAnswer_boolResult (fresh latch : Bool) (p : StalePolicy) (e : Env) :
    ∃ a, (queryAnswer fresh latch p e).2 = boolResult a := by
  unfold queryAnswer
  split
  · exact ⟨_, rfl⟩
  · exact ⟨_, rfl⟩

theorem resultInRange_of_lastResult {i : Instr} {s : State} {r : Word}
    (h : 0 ≤ lastResult (s.respond r) ∧ lastResult (s.respond r) ≤ maxResult i) : ResultInRange i r := by
  simpa [lastResult, ResultInRange] using h

/-! ### Rejected commands (R243, R247) -/

/-- The command is rejected with this diagnostic and this code, and so it is in every state with the same `cfg_err`
and the same routing table. -/
def RejectedAlike (i : Instr) (s : State) (d : Diag) (code : Word) : Prop :=
  ∀ s' : State, s'.cfgErr = s.cfgErr → s'.cfg.route = s.cfg.route → exec i s' = .next (s'.reject d code)

theorem RejectedAlike.exec_eq {i : Instr} {s : State} {d : Diag} {code : Word} (h : RejectedAlike i s d code) :
    exec i s = .next (s.reject d code) := h s rfl rfl

theorem onlyCode_reject (s : State) (d : Diag) (code : Word) : OnlyCode s (s.reject d code) code := by
  refine ⟨if s.cfg.diagEmit then [.diag d] else [], ?_, rfl⟩
  cases h : s.cfg.diagEmit with
  | true => exact .inr ⟨d, rfl, rfl⟩
  | false => exact .inl rfl

/-- With diagnostics off a rejection is the same less its diagnostic. -/
theorem reject_withoutDiags (s : State) (d : Diag) (code : Word) : (withoutDiags s).reject d code =
    { withoutDiags (s.reject d code) with trace := s.trace } := by
  simp [State.reject, State.emitDiag, State.respond, withoutDiags]

/-- A rejection with diagnostics off is the rejection less its diagnostic. -/
theorem RejectedAlike.exec_withoutDiags {i : Instr} {s : State} {d : Diag} {code : Word}
    (h : RejectedAlike i s d code) : exec i (withoutDiags s) =
      .next { withoutDiags (s.reject d code) with trace := s.trace } :=
  (h (withoutDiags s) rfl rfl).trans (congrArg _ (reject_withoutDiags s d code))

theorem filter_diags (s : State) (d : Diag) : (diags s d).filter (fun e => !isDiag e) = [] := by
  unfold diags
  split <;> rfl

theorem length_filter_isDiag_diags (s : State) (d : Diag) : ((diags s d).filter isDiag).length ≤ 1 := by
  unfold diags
  split
  · exact Nat.le_refl 1
  · exact Nat.zero_le 1

/-- A rejected command has no effect but its code, and the state it leaves rejects it again (R243). -/
theorem RejectedAlike.onlyCode_and_again {i : Instr} {s t : State} {d : Diag} {code : Word}
    (h : RejectedAlike i s d code) (ht : exec i s = .next t) :
    OnlyCode s t code ∧ ∃ u, exec i t = .next u ∧ u.results = t.results ++ [code] := by
  cases h.exec_eq.symm.trans ht
  exact ⟨onlyCode_reject s d code, _, h _ rfl rfl, rfl⟩

theorem routed?_congr {s s' : State} (hcfgErr : s'.cfgErr = s.cfgErr) (hroute : s'.cfg.route = s.cfg.route)
    (c : Chan) : routed? c s' = routed? c s := by
  rw [routed?, hcfgErr, hroute, routed?]

/-! ### Boolean queries (R41, R121, R141 to R144) -/

theorem mem_booleanQueries {b : Bank} {ch : Nat} {i : Instr} : i ∈ booleanQueries b ch ↔
    i = .anChanged b ch ∨ i = .trRose ch ∨ i = .trFell ch ∨ i = .trHigh ch ∨ i = .trLow ch := by
  simp [booleanQueries]

/-- A Boolean query has no error code, and its greatest result is 1 (R241). -/
theorem errorOf_and_maxResult_of_booleanQuery {b : Bank} {ch : Nat} {i : Instr} (hi : i ∈ booleanQueries b ch)
    (s : State) : errorOf i s = none ∧ maxResult i = 1 := by
  rcases mem_booleanQueries.mp hi with rfl | rfl | rfl | rfl | rfl <;> exact ⟨rfl, rfl⟩

/-- To an invalid id a Boolean query answers false, in every state. -/
theorem rejectedAlike_of_booleanQuery {b : Bank} {ch : Nat} {i : Instr} (hch : chan? ch = none)
    (hi : i ∈ booleanQueries b ch) (s : State) : ∃ d, RejectedAlike i s d 0#32 := by
  rcases mem_booleanQueries.mp hi with rfl | rfl | rfl | rfl | rfl
  · exact ⟨_, fun s' _ _ => exec_anChanged_invalid b hch s'⟩
  · exact ⟨_, fun s' _ _ => exec_trRose_invalid hch s'⟩
  · exact ⟨_, fun s' _ _ => exec_trFell_invalid hch s'⟩
  · exact ⟨_, fun s' _ _ => exec_trHigh_invalid hch s'⟩
  · exact ⟨_, fun s' _ _ => exec_trLow_invalid hch s'⟩

/-- On a valid id a Boolean query looks up one latch, the same whatever `DIAG_EMIT` is. -/
theorem exec_booleanQuery_id {b : Bank} {c : Chan} {i : Instr} (hi : i ∈ booleanQueries b c.id) (s : State) :
    ∃ fresh latch, exec i s = .next (answerQuery fresh latch s) ∧
      exec i (withoutDiags s) = .next (answerQuery fresh latch (withoutDiags s)) := by
  rcases mem_booleanQueries.mp hi with rfl | rfl | rfl | rfl | rfl
  · exact ⟨_, _, exec_anChanged_id b c s, exec_anChanged_id b c (withoutDiags s)⟩
  · exact ⟨_, _, exec_trRose_id c s, exec_trRose_id c (withoutDiags s)⟩
  · exact ⟨_, _, exec_trFell_id c s, exec_trFell_id c (withoutDiags s)⟩
  · exact ⟨_, _, exec_trHigh_id c s, exec_trHigh_id c (withoutDiags s)⟩
  · exact ⟨_, _, exec_trLow_id c s, exec_trLow_id c (withoutDiags s)⟩

/-! ### Accepted commands -/

/-- The command is accepted: it returns one result in its range or waits for the guard, emits no diagnostic, and
does with `DIAG_EMIT` false what it does with it as it is. -/
structure Accepted (i : Instr) (s t : State) : Prop where
  exec_eq           : exec i s = .next t
  exec_withoutDiags : exec i (withoutDiags s) = .next (withoutDiags t)
  result            : (∃ r, t.results = s.results ++ [r] ∧ ResultInRange i r) ∨
                        (s.busy = true ∧ t.results = s.results)
  trace             : ∃ events, t.trace = s.trace ++ events ∧ ∀ e ∈ events, isDiag e = false

/-- A command that returns a result in its range and emits nothing is accepted. -/
theorem accepted_of_result {i : Instr} {s t : State} {r : Word} (h : exec i s = .next t)
    (hoff : exec i (withoutDiags s) = .next (withoutDiags t)) (hr : ResultInRange i r)
    (hresults : t.results = s.results ++ [r] := by rfl) (htrace : t.trace = s.trace := by rfl) :
    Accepted i s t :=
  ⟨h, hoff, .inl ⟨r, hresults, hr⟩, [], htrace.trans (List.append_nil _).symm,
    fun _ he => absurd he List.not_mem_nil⟩

/-- A query of a latch is accepted. -/
theorem accepted_of_query {i : Instr} {s : State} {fresh latch : Bool} (hi : maxResult i = 1)
    (h : exec i s = .next (answerQuery fresh latch s))
    (hoff : exec i (withoutDiags s) = .next (answerQuery fresh latch (withoutDiags s))) :
    ∃ t, Accepted i s t := by
  rw [answerQuery_eq] at h hoff
  obtain ⟨a, ha⟩ := queryAnswer_boolResult fresh latch s.cfg.stalePolicy s.env
  exact ⟨_, accepted_of_result h hoff (ha ▸ resultInRange_boolResult hi a)⟩

theorem isDiag_of_mem_frameEvents {p : Params} {c : ChipSel} {d : SubDac} {v : Int} :
    ∀ e ∈ frameEvents p c d v, isDiag e = false := by
  simp [frameEvents, isDiag]

theorem dacRequest?_of_dest {cs sub : Nat} {p : ChipSel × SubDac} (h : dest? cs sub = some p) (v : Int) (s : State) :
    dacRequest? (.dacWrite cs sub v) s = some (p.1, p.2, v) := by
  simp only [dacRequest?, h, Option.map_some]

theorem dacRequest?_of_routed {o : Nat} {c : Chan} {s : State} {p : ChipSel × SubDac} (hc : chan? o = some c)
    (h : routed? c s = some p) (v : Int) : dacRequest? (.outWrite o v) s = some (p.1, p.2, v) := by
  simp only [dacRequest?, hc, h, Option.map_some]

theorem dacRequest?_withoutDiags (i : Instr) (s : State) : dacRequest? i (withoutDiags s) = dacRequest? i s := by
  cases i <;> rfl

/-- A DAC write, waiting or done, does not depend on `DIAG_EMIT`. -/
theorem dacWrite_withoutDiags (i : Instr) (c : ChipSel) (d : SubDac) (v : Int) (s : State) :
    dacWrite i c d v (withoutDiags s) = withoutDiags (dacWrite i c d v s) := by
  cases hb : s.busy with
  | true => rw [dacWrite_busy i c d v hb, dacWrite_busy (s := withoutDiags s) i c d v hb]; rfl
  | false => rw [dacWrite_idle i c d v hb, dacWrite_idle (s := withoutDiags s) i c d v hb]; rfl

/-- A command that makes a DAC write is accepted, whether it waits or is done. -/
theorem accepted_of_dacRequest? {i : Instr} {s : State} {c : ChipSel} {d : SubDac} {v : Int}
    (h : dacRequest? i s = some (c, d, v)) : Accepted i s (dacWrite i c d v s) where
  exec_eq := exec_of_dacRequest? h
  exec_withoutDiags :=
    (exec_of_dacRequest? ((dacRequest?_withoutDiags i s).trans h)).trans
      (congrArg _ (dacWrite_withoutDiags i c d v s))
  result := by
    cases hb : s.busy with
    | true => exact .inr ⟨rfl, by rw [dacWrite_busy i c d v hb]; rfl⟩
    | false => exact .inl ⟨0#32, by rw [dacWrite_idle i c d v hb], resultInRange_zero i⟩
  trace := by
    cases hb : s.busy with
    | true =>
      rw [dacWrite_busy i c d v hb]
      exact ⟨[], (List.append_nil _).symm, fun _ he => absurd he List.not_mem_nil⟩
    | false => exact ⟨_, by rw [dacWrite_idle i c d v hb], isDiag_of_mem_frameEvents⟩

/-! ### Every command is rejected or accepted -/

/-- What becomes of a command (R241): the table gives it an error and it is rejected with that code; it is a Boolean
query of an invalid id; it asks for an output that a table marked valid does not route (log 10); or it is
accepted. -/
inductive Verdict (i : Instr) (s : State) : Prop where
  | error (d : Diag) (code : Word) (herr : errorOf i s = some code.toInt) (h : RejectedAlike i s d code)
  | answeredFalse (d : Diag) (herr : errorOf i s = none) (h : RejectedAlike i s d 0#32)
  | unrouted (d : Diag) (hcfg : s.cfgErr = false) (hroute : routeOk s.cfg.route = false)
      (h : RejectedAlike i s d errConfig)
  | accepted (t : State) (herr : errorOf i s = none) (h : Accepted i s t)

/-- A channel command with an error code: it is rejected for an invalid id, and accepted on each valid one. -/
theorem Verdict.onChannel {i : Instr} {s : State} {ch : Nat} {d : Diag}
    (herr : errorOf i s = if 1 ≤ ch ∧ ch ≤ 4 then none else some (-1))
    (hinvalid : chan? ch = none → ∀ s', exec i s' = .next (s'.reject d errInvalidId))
    (hvalid : ∀ c : Chan, c.id = ch → ∃ t, Accepted i s t) : Verdict i s := by
  cases hch : chan? ch with
  | none => exact .error d errInvalidId (herr.trans (if_neg (chan?_eq_none.mp hch))) fun s' _ _ => hinvalid hch s'
  | some c =>
    obtain rfl := id_of_chan? hch
    obtain ⟨t, ht⟩ := hvalid c rfl
    exact .accepted t (herr.trans (if_pos c.id_valid)) ht

theorem Verdict.booleanQuery {i : Instr} {b : Bank} {ch : Nat} (hi : i ∈ booleanQueries b ch) (s : State) :
    Verdict i s := by
  obtain ⟨herr, hmax⟩ := errorOf_and_maxResult_of_booleanQuery hi s
  cases hch : chan? ch with
  | none =>
    obtain ⟨d, h⟩ := rejectedAlike_of_booleanQuery hch hi s
    exact .answeredFalse d herr h
  | some c =>
    obtain rfl := id_of_chan? hch
    obtain ⟨fresh, latch, h, hoff⟩ := exec_booleanQuery_id hi s
    obtain ⟨t, ht⟩ := accepted_of_query hmax h hoff
    exact .accepted t herr ht

theorem Verdict.write {i : Instr} {s : State} {p : ChipSel × SubDac × Int} (h : dacRequest? i s = some p) :
    Verdict i s :=
  .accepted _ (errorOf_of_dacRequest? h) (accepted_of_dacRequest? h)

/-- An unrouted output is an error when `cfg_err` is set; when it is clear, the table has a bad entry (log 10). -/
theorem Verdict.unroutedWrite {s : State} {c : Chan} (h : routed? c s = none) (v : Int) :
    Verdict (.outWrite c.id v) s := by
  have hrejected : RejectedAlike (.outWrite c.id v) s (.badDest 0x21#6 [c.id]) errConfig :=
    fun s' hcfgErr hroute => exec_outWrite_unrouted (chan?_id c) ((routed?_congr hcfgErr hroute c).trans h) v
  cases hcfg : s.cfgErr with
  | true => exact .error _ errConfig ((if_pos c.id_valid).trans (if_pos hcfg)) hrejected
  | false =>
    refine .unrouted _ hcfg (Bool.eq_false_iff.mpr fun hok => ?_) hrejected
    obtain ⟨l, d, hdest⟩ := dest?_of_routeOk hok c
    simp [routed?, hcfg, hdest] at h

/-- Every command meets one of these verdicts. -/
theorem exec_verdict (i : Instr) (s : State) : Verdict i s := by
  cases i with
  | sysNop => exact .accepted _ rfl (accepted_of_result (answers_sysNop s) rfl (resultInRange_zero _))
  | sysCycle => exact .accepted _ rfl (accepted_of_result (exec_sysCycle s) rfl (resultInRange_zero _))
  | sysStatus =>
    exact .accepted _ rfl (accepted_of_result (answers_sysStatus s) rfl (resultInRange_statusWord s))
  | anUpdate b ch =>
    refine .onChannel rfl (exec_anUpdate_invalid b) fun c hc => ?_
    subst hc
    exact ⟨_, accepted_of_result (exec_anUpdate_id b c s) (exec_anUpdate_id b c (withoutDiags s))
      (resultInRange_sampleResult rfl _)⟩
  | anChanged b ch => exact .booleanQuery (b := b) (ch := ch) (by simp [booleanQueries]) s
  | anRaw b ch =>
    refine .onChannel rfl (exec_anRaw_invalid b) fun c hc => ?_
    subst hc
    exact ⟨_, accepted_of_result (exec_anRaw_id b c s) (exec_anRaw_id b c (withoutDiags s))
      (resultInRange_sampleResult rfl _)⟩
  | anCur b ch =>
    refine .onChannel rfl (exec_anCur_invalid b) fun c hc => ?_
    subst hc
    exact ⟨_, accepted_of_result (exec_anCur_id b c s) (exec_anCur_id b c (withoutDiags s))
      (resultInRange_sampleResult rfl _)⟩
  | anLast b ch =>
    refine .onChannel rfl (exec_anLast_invalid b) fun c hc => ?_
    subst hc
    exact ⟨_, accepted_of_result (exec_anLast_id b c s) (exec_anLast_id b c (withoutDiags s))
      (resultInRange_sampleResult rfl _)⟩
  | trRefresh ch =>
    refine .onChannel rfl exec_trRefresh_invalid fun c hc => ?_
    subst hc
    exact ⟨_, accepted_of_result (exec_trRefresh_id c s) (exec_trRefresh_id c (withoutDiags s))
      (resultInRange_zero _)⟩
  | trRose ch | trFell ch | trHigh ch | trLow ch =>
    exact .booleanQuery (b := .cv) (ch := ch) (by simp [booleanQueries]) s
  | trRaw ch =>
    refine .onChannel rfl exec_trRaw_invalid fun c hc => ?_
    subst hc
    exact ⟨_, accepted_of_result (exec_trRaw_id c s) (exec_trRaw_id c (withoutDiags s))
      (resultInRange_boolResult rfl _)⟩
  | scA2m v =>
    exact .accepted _ rfl (accepted_of_result (answers_scA2m v s) (answers_scA2m v (withoutDiags s))
      (resultInRange_of_lastResult (lastResult_scA2m_bounds (answers_scA2m v s))))
  | scM2d v =>
    exact .accepted _ rfl (accepted_of_result (answers_scM2d v s) (answers_scM2d v (withoutDiags s))
      (resultInRange_of_lastResult (lastResult_scM2d_bounds (answers_scM2d v s))))
  | scA2d v =>
    exact .accepted _ rfl (accepted_of_result (answers_scA2d v s) (answers_scA2d v (withoutDiags s))
      (resultInRange_of_lastResult (lastResult_scA2d_bounds (answers_scA2d v s))))
  | dacWrite cs sub v =>
    cases hdest : dest? cs sub with
    | none =>
      have hbad : ¬ (cs ≤ 1 ∧ sub ≤ 1) := by
        have := dest?_eq_none.mp hdest
        omega
      exact .error _ errConfig (if_neg hbad) fun s' _ _ => exec_dacWrite_malformed hdest v s'
    | some p => exact .write (dacRequest?_of_dest hdest v s)
  | outWrite o v =>
    cases ho : chan? o with
    | none =>
      exact .error _ errInvalidId (if_neg (chan?_eq_none.mp ho)) fun s' _ _ => exec_outWrite_invalid ho v s'
    | some c =>
      obtain rfl := id_of_chan? ho
      cases hroute : routed? c s with
      | some p => exact .write (dacRequest?_of_routed ho hroute v)
      | none => exact .unroutedWrite hroute v

theorem rejected_or_accepted (i : Instr) (s : State) :
    (∃ d code, RejectedAlike i s d code) ∨ ∃ t, Accepted i s t := by
  cases exec_verdict i s with
  | error _ _ _ h | answeredFalse _ _ h | unrouted _ _ _ h => exact .inl ⟨_, _, h⟩
  | accepted t _ h => exact .inr ⟨t, h⟩

/-! ### The statements -/

/-- Settles O41, by the verdict on the command: the invariant rules out an unrouted output of a valid table and a
write that waits. -/
theorem negativeResultMeansError : Obligations.NegativeResultMeansError := by
  intro i s hs
  obtain ⟨-, -, hbusy⟩ := hs.quiet
  cases exec_verdict i s with
  | error d code herr h =>
    exact ⟨_, code, h.exec_eq, rfl, fun e he => Option.some.inj (herr.symm.trans he),
      fun hnone => by simp [herr] at hnone⟩
  | answeredFalse d herr h =>
    exact ⟨_, 0#32, h.exec_eq, rfl, fun e he => by simp [herr] at he, fun _ => resultInRange_zero i⟩
  | unrouted d hcfg hroute h =>
    have hinv := hs.cfgErr
    simp [hcfg, hroute] at hinv
  | accepted t herr h =>
    rcases h.result with ⟨r, hr, hrange⟩ | ⟨hwait, -⟩
    · exact ⟨t, r, h.exec_eq, hr, fun e he => by simp [herr] at he, fun _ => hrange⟩
    · simp [hbusy] at hwait

/-- A command that returns a negative result is rejected with it. -/
theorem rejectedAlike_of_negative {i : Instr} {s t : State} {r : Word} (h : exec i s = .next t)
    (hr : t.results = s.results ++ [r]) (hneg : r.toInt < 0) : ∃ d, RejectedAlike i s d r := by
  rcases rejected_or_accepted i s with ⟨d, code, hrej⟩ | ⟨t', hacc⟩
  · cases hrej.exec_eq.symm.trans h
    obtain rfl : code = r := by simpa using hr
    exact ⟨d, hrej⟩
  · cases hacc.exec_eq.symm.trans h
    rcases hacc.result with ⟨r', hr', hrange, -⟩ | ⟨-, hr'⟩
    · obtain rfl : r' = r := by simpa [hr] using hr'.symm
      omega
    · simp [hr] at hr'

/-- Settles O42: a negative result is a rejection's, and so is the answer to a query of an invalid id; an illegal word
is rejected by the step, as often as it comes. -/
theorem errorHasNoOtherEffect : Obligations.ErrorHasNoOtherEffect := by
  refine ⟨fun i s t r h hr hneg => ?_, fun b ch s hch i hi => ?_, fun s cw arg rest hp hill => ?_⟩
  · obtain ⟨d, hrej⟩ := rejectedAlike_of_negative h hr hneg
    exact hrej.onlyCode_and_again h
  · obtain ⟨d, hrej⟩ := rejectedAlike_of_booleanQuery (chan?_eq_none.mpr hch) hi s
    exact ⟨_, hrej.exec_eq, hrej.onlyCode_and_again hrej.exec_eq⟩
  · exact ⟨_, _, step_illegal hp hill, onlyCode_reject _ _ _, step_illegal rfl hill, rfl⟩

/-- Settles O43: a rejection emits one diagnostic at most, an accepted command none. -/
theorem diagnosticsChangeNothingElse : Obligations.DiagnosticsChangeNothingElse := by
  intro i s t ht
  rcases rejected_or_accepted i s with ⟨d, code, h⟩ | ⟨t', h⟩
  · cases h.exec_eq.symm.trans ht
    refine ⟨diags s d, rfl, length_filter_isDiag_diags s d, ?_⟩
    rw [filter_diags, List.append_nil, h.exec_withoutDiags]
  · cases h.exec_eq.symm.trans ht
    obtain ⟨events, htrace, hnone⟩ := h.trace
    have hdiags : events.filter isDiag = [] := List.filter_eq_nil_iff.mpr (by simpa using hnone)
    have hothers : events.filter (fun e => !isDiag e) = events := List.filter_eq_self.mpr (by simpa using hnone)
    refine ⟨events, htrace, by simp [hdiags], ?_⟩
    rw [hothers, ← htrace]
    exact h.exec_withoutDiags

end Sys2Proof.Machine
end

section
/-! SUPPORT. Reset (family 70_reset_and_hazards): what `rst` makes of any state, what it adds to the trace of a
DAC write it cuts, and how long a channel stays as a reset left it. -/

namespace Sys2Proof.Machine

open Sys2Proof.Claims

/-! ### Reset between commands (R270, R271, R273) -/

/-- Settles O45: each field of `rst` by its law, and no write to abandon in a quiet state. -/
theorem rstGivesResetValues : Obligations.RstGivesResetValues := by
  intro s rest hp
  refine ⟨_, step_reset hp, rfl, rfl, rfl, rfl, rfl, fun b c => ?_, fun c => ?_, rfl, rfl, rfl, fun hq => ?_⟩
  · rw [rst_channel]; rfl
  · rw [rst_trig]; rfl
  · have hquiet : Quiet (s.setPort rest) := hq
    simp [abandonEvents_of_quiet hquiet]

/-! ### Reset inside a DAC write (R274) -/

/-- The events one step of a DAC write emits (R190, R200). -/
def SeqStep.events (p : Params) : SeqStep → List Event
  | .setBusy | .clearBusy => []
  | .assertLine c => [.csAssert c]
  | .claimBus => [.claim p.dacSckHz .msbFirst .cpol0Cpha0]
  | .send x => [.xfer x]
  | .releaseBus => [.release]
  | .deassertLine c => [.csDeassert c]

theorem SeqStep.run_trace (q : SeqStep) (s : State) : (q.run s).trace = s.trace ++ q.events s.cfg := by
  cases q with
  | setBusy | clearBusy => exact (List.append_nil _).symm
  | assertLine | claimBus | send | releaseBus | deassertLine => rfl

theorem SeqStep.run_results (q : SeqStep) (s : State) : (q.run s).results = s.results := by
  cases q <;> rfl

theorem runSequence_trace (q : List SeqStep) (s : State) :
    (runSequence q s).trace = s.trace ++ q.flatMap (SeqStep.events s.cfg) := by
  induction q generalizing s with
  | nil => exact (List.append_nil _).symm
  | cons x rest ih =>
    have hcfg : (x.run s).cfg = s.cfg := (x.extends_run s).cfg
    calc (runSequence (x :: rest) s).trace
        = (x.run s).trace ++ rest.flatMap (SeqStep.events (x.run s).cfg) := ih (x.run s)
      _ = s.trace ++ (x :: rest).flatMap (SeqStep.events s.cfg) := by
          rw [hcfg, x.run_trace, List.flatMap_cons, List.append_assoc]

/-- The steps of a DAC write return nothing: the result comes after the last of them (R190). -/
theorem runSequence_results (q : List SeqStep) (s : State) : (runSequence q s).results = s.results := by
  induction q generalizing s with
  | nil => rfl
  | cons x rest ih => exact (ih (x.run s)).trans (x.run_results s)

/-- Of the first `k` steps of a write the first sets the guard, and each further one emits its event, until the
six events are out. -/
theorem flatMap_events_take (p : Params) (c : ChipSel) (d : SubDac) (v : Int) (k : Nat) :
    ((dacSequence p c d v).take k).flatMap (SeqStep.events p) = (frameEvents p c d v).take (k - 1) := by
  match k with
  | 0 | 1 | 2 | 3 | 4 | 5 | 6 | 7 => rfl
  | n + 8 =>
    have hsteps : (dacSequence p c d v).take (n + 8) = dacSequence p c d v :=
      List.take_of_length_le (Nat.le_add_left 8 n)
    have hevents : (frameEvents p c d v).take (n + 7) = frameEvents p c d v :=
      List.take_of_length_le (Nat.le_add_left 6 (n + 1))
    rw [hsteps]
    exact hevents.symm

/-- The trace of a write after `k` of its steps. -/
theorem runSequence_take_trace (c : ChipSel) (d : SubDac) (v : Int) (k : Nat) (s : State) :
    (runSequence ((dacSequence s.cfg c d v).take k) s).trace
      = s.trace ++ (writeEvents s c d v).take (k - 1) := by
  rw [runSequence_trace, flatMap_events_take, frameEvents_eq_writeEvents]

/-- Reset closes the bus if it is owned, and then raises the one line that may be low (R274). -/
theorem abandonEvents_of_busAt {s : State} {c : ChipSel} {low owned : Prop} [Decidable low] [Decidable owned]
    {busy : Bool}
    (h : BusAt s (if low then Lines.set ⟨true, true⟩ c false else ⟨true, true⟩) owned busy) :
    abandonEvents s = (if owned then [.release] else []) ++ (if low then [.csDeassert c] else []) := by
  obtain ⟨hlines, hbus, -⟩ := h
  rw [abandonEvents, hlines, hbus]
  by_cases hlow : low
  · cases c <;> simp [hlow, Lines.set]
  · simp [hlow]

/-- `rst` finds a write that runs in a quiet block with its first `k` steps done (log 8). -/
theorem cutWrite_of_quiet {i : Instr} {s : State} {c : ChipSel} {d : SubDac} {v : Int} (hq : Quiet s)
    (hreq : dacRequest? i s = some (c, d, v)) (k : Nat) :
    cutWrite i k s = runSequence ((dacSequence s.cfg c d v).take k) s := by
  obtain ⟨-, -, hbusy⟩ := hq
  simp [cutWrite, hreq, hbusy]

/-- The trace that reset ends when it cuts a write after `k` steps: the events of those steps, then those of
R274. -/
theorem endedTraces_rst_take {s : State} (h : Quiet s) (c : ChipSel) (d : SubDac) (v : Int) (k : Nat) :
    (rst (runSequence ((dacSequence s.cfg c d v).take k) s)).endedTraces = s.endedTraces ++
      [s.trace ++ (writeEvents s c d v).take (k - 1) ++
        (if 3 ≤ k ∧ k ≤ 5 then [.release] else []) ++
        (if 2 ≤ k ∧ k ≤ 6 then [.csDeassert c] else [])] := by
  rw [rst_endedTraces, (extends_runSequence _ s).endedTraces, runSequence_take_trace,
    abandonEvents_of_busAt (busAt_take h c d v k), ← List.append_assoc]

/-- Settles O46: the step is `rst` of the cut write, whose steps return no result; no step before the second
emits an event. -/
theorem resetAbandonsDacWrite : Obligations.ResetAbandonsDacWrite := by
  intro s cw arg k rest i c d v hp hd hreq hq
  have hquiet : Quiet (s.setPort rest) := hq
  have hcut : cutWrite i k (s.setPort rest)
      = runSequence ((dacSequence s.cfg c d v).take k) (s.setPort rest) :=
    cutWrite_of_quiet hquiet ((dacRequest?_setPort i s rest).trans hreq) k
  have hstep : step s
      = .next (rst (runSequence ((dacSequence s.cfg c d v).take k) (s.setPort rest))) := by
    simp only [step_resetDuring hp, resetDuring, hd, hcut]
  have hsent : (if k ≤ 1 then 0 else k - 1) = k - 1 := by split <;> omega
  refine ⟨_, hstep, ⟨rfl, rfl, rfl⟩, runSequence_results _ (s.setPort rest), rfl, ?_⟩
  rw [hsent]
  exact endedTraces_rst_take hquiet c d v k

/-! ### After a reset (R275) -/

theorem channel_of_isReset {r : State} {n : Nat} (h : IsReset r n) (b : Bank) (c : Chan) :
    r.channel b c = AnalogChannel.afterReset n b c := by
  rcases h with ⟨rfl, rfl⟩ | ⟨s, rfl, rfl⟩
  · simp [State.reset, State.afterReset, State.channel]
  · exact rst_channel s b c

theorem trig_of_isReset {r : State} {n : Nat} (h : IsReset r n) (c : Chan) :
    r.trig c = TriggerChannel.afterReset n c := by
  rcases h with ⟨rfl, rfl⟩ | ⟨s, rfl, rfl⟩
  · simp [State.reset, State.afterReset, State.trig]
  · exact rst_trig s c

/-- Only its own update makes an analog channel fresh (R40). -/
theorem exec_keeps_channel_stale {i : Instr} {s t : State} (h : exec i s = .next t) {b : Bank} {c : Chan}
    (hi : i ≠ .anUpdate b c.id) (hs : (s.channel b c).fresh = false) : (t.channel b c).fresh = false := by
  rcases (ending_of_exec h).channel_cases b c with heq | ⟨-, heq⟩ | ⟨hupdate, -⟩
  · rw [heq, hs]
  · rw [heq]
  · exact absurd hupdate hi

/-- Only its own refresh makes a trigger channel fresh (R40). -/
theorem exec_keeps_trig_stale {i : Instr} {s t : State} (h : exec i s = .next t) {c : Chan}
    (hi : i ≠ .trRefresh c.id) (hs : (s.trig c).fresh = false) : (t.trig c).fresh = false := by
  rcases (ending_of_exec h).trig_cases c with heq | ⟨-, heq⟩ | ⟨hrefresh, -⟩
  · rw [heq, hs]
  · rw [heq]
  · exact absurd hrefresh hi

theorem exec_keeps_current {i : Instr} {s t : State} (h : exec i s = .next t) {b : Bank} {c : Chan}
    (hi : i ≠ .anUpdate b c.id) : (t.channel b c).current = (s.channel b c).current :=
  (onlyUpdateWritesAnalogRegisters i s t h b c hi).1

/-- The channel is as reset number `n` left its ghost bit and its `current`. -/
def ResetStanding (n : Nat) (b : Bank) (c : Chan) (s : State) : Prop :=
  (s.channel b c).fresh = false ∧ (s.channel b c).current = Config.resetCurrent n b c

/-- Until a channel's first update after a reset, its ghost bit and its `current` are as the reset left them. -/
theorem execAll_keeps_resetStanding {r t : State} {n : Nat} (hr : IsReset r n) {b : Bank} {c : Chan}
    {first : List Instr} (hfirst : .anUpdate b c.id ∉ first) (hrun : execAll first r = .next t) :
    ResetStanding n b c t := by
  refine execAll_keeps (P := ResetStanding n b c) (fun i hi s u h ⟨hstale, hcurrent⟩ => ?_) hrun ?_
  · have hne : i ≠ .anUpdate b c.id := ne_of_mem_of_not_mem hi hfirst
    exact ⟨exec_keeps_channel_stale h hne hstale, (exec_keeps_current h hne).trans hcurrent⟩
  · rw [ResetStanding, channel_of_isReset hr]
    exact ⟨rfl, rfl⟩

/-- Until a trigger channel's first refresh after a reset it is stale. -/
theorem execAll_keeps_trig_stale {r t : State} {n : Nat} (hr : IsReset r n) {c : Chan}
    {first : List Instr} (hfirst : .trRefresh c.id ∉ first) (hrun : execAll first r = .next t) :
    (t.trig c).fresh = false := by
  refine execAll_keeps (P := fun s => (s.trig c).fresh = false)
    (fun i hi _ _ h => exec_keeps_trig_stale h (ne_of_mem_of_not_mem hi hfirst)) hrun ?_
  rw [trig_of_isReset hr]
  rfl

/-- Settles O48: up to the first update or refresh the ghost bit stays 0 and `current` keeps its reset value,
which that update moves into `last`. -/
theorem afterResetQueriesAreStale : Obligations.AfterResetQueriesAreStale := by
  intro r n hr
  constructor
  · intro b c first t hfirst hrun
    obtain ⟨hstale, hcurrent⟩ := execAll_keeps_resetStanding hr hfirst hrun
    refine ⟨by simp [staleQuery, hstale], _, exec_anUpdate_id b c t, ?_⟩
    rw [updateChannel_last, hcurrent]
  · intro c first t hfirst hrun i hi
    have hstale : (t.trig c).fresh = false := execAll_keeps_trig_stale hr hfirst hrun
    simp only [List.mem_cons, List.not_mem_nil, or_false] at hi
    rcases hi with rfl | rfl | rfl | rfl <;> simp [staleQuery, hstale]

end Sys2Proof.Machine
end
